-- ==== Sys2Proof/Word.lean ====
section
/-! DEFINITION. The plain values the core works with: levels, bits, command words, pixels (R12, R13, R21, R84). -/

namespace Sys2Proof

/-- A Level of the wire: `false` is pin low (0), `true` is pin high (1) (R13). -/
abbrev Level := Bool

/-- One bit as the wire carries it (R13). -/
abbrev Bit := Bool

/-- A host command word, `cmd[31:0]` (R84). -/
abbrev Word := BitVec 32

/-- A Pixel: "an ordered triple of 8-bit channel intensities (red, green, blue)", each 0..255 (R19, R21, R81). -/
structure Pixel where
  r : BitVec 8
  g : BitVec 8
  b : BitVec 8
  deriving DecidableEq, Repr, Inhabited

end Sys2Proof
end

