-- ==== Sys2Proof/Config.lean ====
section
/-! DEFINITION. What is fixed for the machine: the source's constants (R8, R10), the open parameters with their defaults
and constraints (R9, U14), and the values no rule fixes, as constants without a body (U6, U12, U13). -/

namespace Sys2Proof

/-- The open parameters of R9, and the host's boot wait. `N0L` and `N1L` are not free: see `Config.nl`. A machine carries its parameters in its
state, where no step changes them, so that a statement about every state is one about every choice of them (log 2). -/
structure Config where
  /-- `N_BIT`: ticks in one bit slot. -/
  nBit : Nat
  /-- `N0H`: high ticks of the symbol of 0. -/
  n0h : Nat
  /-- `N1H`: high ticks of the symbol of 1. -/
  n1h : Nat
  /-- `N_RESET`: ticks of the reset/latch gap. -/
  nReset : Nat
  /-- `T_CLK` in nanoseconds; no step depends on it (R15). -/
  tClkNs : Nat
  /-- `INT_W`: bits, signed, of the ColorModel's intermediates; the model's arithmetic is exact (R162, D14). -/
  intW : Nat
  /-- `HUE_SENTINEL`: the host's initial LAST_HUE (R196). -/
  hueSentinel : Nat
  /-- `T_BOOT` in ticks: how long the host waits before its first sample (R10, R200); about 500 ms has no exact count (log 25). -/
  bootTicks : Nat
  deriving DecidableEq, Repr

/-- R9's default column, and 500 ms at 50 ns a tick (log 25). -/
def Config.defaults : Config :=
  { nBit := 25, n0h := 8, n1h := 16, nReset := 1000, tClkNs := 50, intW := 18, hueSentinel := 511,
    bootTicks := 10000000 }

/-- `NH(b)`: high ticks of the symbol of `b` (R32, R104). -/
def Config.nh (c : Config) (b : Bit) : Nat := if b then c.n1h else c.n0h

/-- `N0L`, `N1L`: low ticks of the symbol of `b`, `N_BIT - NH(b)` (R9, R71, R107 (d)). -/
def Config.nl (c : Config) (b : Bit) : Nat := c.nBit - c.nh b

/-- `NUM_LEDS` (R8). -/
def numLeds : Nat := 60

/-- `CHANNELS` (R8). -/
def channels : Nat := 3

/-- `BITS_PER_CHANNEL` (R8). -/
def bitsPerChannel : Nat := 8

/-- `BITS_PER_PIXEL = CHANNELS * BITS_PER_CHANNEL` (R8). -/
def bitsPerPixel : Nat := channels * bitsPerChannel

/-- `T_RESET_MIN`, 50 microseconds, in nanoseconds (R8). -/
def tResetMinNs : Nat := 50000

/-- `H_MAX` (R8). -/
def hMax : Nat := 359

/-- `PCT_MAX` (R8). -/
def pctMax : Nat := 100

/-- `CH_MAX` (R8). -/
def chMax : Nat := 255

/-- `T_BIT`, about 1.25 microseconds, in nanoseconds (R8); no step depends on it (R15, R262). -/
def tBitNs : Nat := 1250

/-- `ADC_BITS` (R10); a conversion is a value of that many bits, `BitVec 10` below (R83). -/
def adcBits : Nat := 10

/-- `T_LOOP`, about 100 ms (R10); "the delay is modelled as nothing" (R199). -/
def tLoopMs : Nat := 100

/-- `T_BOOT`, about 500 ms (R10); in ticks it is `Config.bootTicks`. -/
def tBootMs : Nat := 500

/-- `ADC_SAMPLES` (R10). -/
def adcSamples : Nat := 10

/-- `HUE_MUL` (R10). -/
def hueMul : Nat := 6

/-- `HUE_DIV` (R10). -/
def hueDiv : Nat := 25

/-- `HUE_OFF` (R10). -/
def hueOff : Nat := 120

/-- `RENDER_S` (R10). -/
def renderS : Nat := 100

/-- `RENDER_V` (R10). -/
def renderV : Nat := 20

/-- What R9 and R107 (a) to (d) require of any choice of the parameters: every symbol is high first and low last, the
1 is high longer, the gap lasts at least `T_RESET_MIN`, the largest intermediate 100000 fits `INT_W` signed bits, and
the sentinel is no hue, and the boot wait covers the first gap (R200). "About 1.25 µs" and the tolerance windows (R107 (e), (f)) are not in it: log 20. -/
abbrev Config.Valid (c : Config) : Prop :=
  1 ≤ c.n0h ∧ c.n0h < c.n1h ∧ c.n1h < c.nBit ∧ tResetMinNs ≤ c.nReset * c.tClkNs ∧ 100000 < 2 ^ (c.intW - 1) ∧
    hMax < c.hueSentinel ∧ c.nReset ≤ c.bootTicks

/-- A slot is shorter than the gap, so a low part is never taken for an end of frame (R76: the reset threshold is far
above `N0L`). True at R9's nominal times; a premise of statements that read a whole frame back. -/
abbrev Config.SlotBelowGap (c : Config) : Prop := c.nBit ≤ c.nReset

/-- Free value: what COLOR holds after tick number `n`'s reset; R37 and R250 leave it unspecified (U6, log 4). -/
opaque Config.colorAfterReset : Nat → Pixel

/-- Free value: the result of the ADC conversion that is draw number `n`, any value in 0..1023 (R201, U13, log 9). -/
opaque Config.adcResult : Nat → BitVec 10

/-- Free value: whether the poll at draw number `n` finds the conversion unfinished; the poll may never end (R201, R202, U12,
log 9). -/
opaque Config.adcBusy : Nat → Bool

end Sys2Proof
end

