-- ==== Sys2Proof/Syntax.lean ====
section
/-! DEFINITION. The five operations of the opcode map (R86) and the pseudo-instructions (R91), as syntax. -/

namespace Sys2Proof

/-- The opcode map (R86): three host commands in the command word, two micro-operations PW gives BE. Operand fields
have the widths the command word gives them (R85). -/
inductive Instr where
  /-- `SETRGB r, g, b` (R121). -/
  | setrgb (r g b : BitVec 8)
  /-- `HSV2RGB h, s, v` (R150). -/
  | hsv2rgb (h : BitVec 9) (s v : BitVec 7)
  /-- `WRITE` (R120). -/
  | write
  /-- `EMIT0` (R101). -/
  | emit0
  /-- `EMIT1` (R102). -/
  | emit1
  deriving DecidableEq, Repr

/-- Whether the operation is a host command, that is one of the first three rows of R86. -/
def Instr.isCommand : Instr → Bool
  | .setrgb _ _ _ => true
  | .hsv2rgb _ _ _ => true
  | .write => true
  | .emit0 => false
  | .emit1 => false

/-- The pseudo-instructions of R91. -/
inductive Pseudo where
  /-- `SHOW h, s, v`. -/
  | showHsv (h : BitVec 9) (s v : BitVec 7)
  /-- `RENDER h`. -/
  | render (h : BitVec 9)
  /-- `FILL r, g, b`. -/
  | fill (r g b : BitVec 8)
  deriving DecidableEq, Repr

end Sys2Proof
end

