-- ==== Sys2Proof/WellFormed.lean ====
section
/-! DEFINITION. Which instructions are within the specified operand domains (R79, R80, R151, R168). -/

namespace Sys2Proof

/-- R151: `h` in 0..359, `s` and `v` in 0..100. -/
def hsvInDomain (h : BitVec 9) (s v : BitVec 7) : Bool :=
  decide (h.toNat ≤ hMax) && decide (s.toNat ≤ pctMax) && decide (v.toNat ≤ pctMax)

/-- An instruction the spec gives a meaning: only HSV2RGB has operands outside its domain (R168); every operand of
SETRGB is legal (R121), the other three have none. -/
def Instr.wf : Instr → Bool
  | .setrgb _ _ _ => true
  | .hsv2rgb h s v => hsvInDomain h s v
  | .write => true
  | .emit0 => true
  | .emit1 => true

end Sys2Proof
end

