-- ==== Sys2Proof/Decode.lean ====
section
/-! DEFINITION. The command word and the BE request, decoded and encoded (R84 to R89), pseudo-instructions expanded
(R91). Decoding is total; every word that matches no row is rejected by name (R87). -/

namespace Sys2Proof

/-- Why a command word is reserved (R87); the hardware reports neither, a model refuses either (U1, U2). -/
inductive DecodeError where
  /-- `op` = 11, with any operand (U1). -/
  | reservedOp
  /-- A must-be-zero bit of the format of `op` is set (U2). -/
  | nonzeroReservedBits
  deriving DecidableEq, Repr

/-- `op`, bits 31..30 (R84). -/
def fieldOp (w : Word) : BitVec 2 := w.extractLsb' 30 2

/-- Format C, `r` = bits 23..16 (R85). -/
def fieldR (w : Word) : BitVec 8 := w.extractLsb' 16 8

/-- Format C, `g` = bits 15..8 (R85). -/
def fieldG (w : Word) : BitVec 8 := w.extractLsb' 8 8

/-- Format C, `b` = bits 7..0 (R85). -/
def fieldB (w : Word) : BitVec 8 := w.extractLsb' 0 8

/-- Format H, `h` = bits 22..14 (R85). -/
def fieldH (w : Word) : BitVec 9 := w.extractLsb' 14 9

/-- Format H, `s` = bits 13..7 (R85). -/
def fieldS (w : Word) : BitVec 7 := w.extractLsb' 7 7

/-- Format H, `v` = bits 6..0 (R85). -/
def fieldV (w : Word) : BitVec 7 := w.extractLsb' 0 7

/-- The command a word stands for: a row's match and mask of R86, else the reason of R87. -/
def decode (w : Word) : Except DecodeError Instr :=
  if w &&& 0xFF000000#32 = 0x00000000#32 then .ok (.setrgb (fieldR w) (fieldG w) (fieldB w))
  else if w &&& 0xFF800000#32 = 0x40000000#32 then .ok (.hsv2rgb (fieldH w) (fieldS w) (fieldV w))
  else if w = 0x80000000#32 then .ok .write
  else if fieldOp w = 0b11#2 then .error .reservedOp
  else .error .nonzeroReservedBits

/-- The request on `be_bit`: 0 selects EMIT0, 1 selects EMIT1; both are legal (R88). -/
def decodeRequest (beBit : Bit) : Instr := if beBit then .emit1 else .emit0

/-- What carries an operation to its unit: a command word (formats C, H, N) or the one wire `be_bit` (format B). -/
inductive Encoded where
  /-- On port `cmd` (R84). -/
  | word (w : Word)
  /-- On `be_bit` (R88). -/
  | request (beBit : Bit)
  deriving DecidableEq, Repr

/-- Format C (R84): `op` = 00, six zero bits, `r`, `g`, `b`. -/
def encodeRgb (r g b : BitVec 8) : Word := 0x00#8 ++ r ++ g ++ b

/-- Format H (R84): `op` = 01, seven zero bits, `h`, `s`, `v`. -/
def encodeHsv (h : BitVec 9) (s v : BitVec 7) : Word := 0b01#2 ++ 0#7 ++ h ++ s ++ v

/-- Format N (R84) with `op` = 10: WRITE. -/
def encodeWrite : Word := 0b10#2 ++ 0#30

/-- The encoding of an operation (R84, R88). -/
def encode : Instr → Encoded
  | .setrgb r g b => .word (encodeRgb r g b)
  | .hsv2rgb h s v => .word (encodeHsv h s v)
  | .write => .word encodeWrite
  | .emit0 => .request false
  | .emit1 => .request true

/-- Decoding what `encode` gives: the word's command, or the request's micro-operation. -/
def decodeEncoded : Encoded → Except DecodeError Instr
  | .word w => decode w
  | .request b => .ok (decodeRequest b)

/-- A host command's word; the micro-operations have none, the host cannot drive `be_bit` (R88). -/
def Instr.word? : Instr → Option Word
  | .setrgb r g b => some (encodeRgb r g b)
  | .hsv2rgb h s v => some (encodeHsv h s v)
  | .write => some encodeWrite
  | .emit0 => none
  | .emit1 => none

/-- The decoder on a table row's bits. Up to one byte it is format B, whose one wire is bit 0 (log 18); a longer row is
the 32-bit command word, which no longer number can be. -/
def decodeTableWord (nbits w : Nat) : Option Instr :=
  if nbits ≤ 8 then some (decodeRequest (decide (w % 2 = 1)))
  else if w < 2 ^ 32 then
    match decode (BitVec.ofNat 32 w) with
    | .ok i => some i
    | .error _ => none
  else none

/-- R91: each pseudo-instruction's fixed expansion. -/
def Pseudo.expand : Pseudo → List Instr
  | .showHsv h s v => [.hsv2rgb h s v, .write]
  | .render h => [.hsv2rgb h (BitVec.ofNat 7 renderS) (BitVec.ofNat 7 renderV), .write]
  | .fill r g b => [.setrgb r g b, .write]

end Sys2Proof
end

