-- ==== Sys2Proof/Machine/State.lean ====
section
/-! DEFINITION. The state as plain data: the core's eight elements (R20), the traces (R35), SHOWN (R34), the input ports
(R31) and the host (R36), with the reset state (R37) and the reasons a step can stop. -/

namespace Sys2Proof.Machine

/-- `PHASE` (R20, R23): IDLE = 0, SEND = 1, LATCH = 2; the code 3 never occurs. -/
inductive Phase where
  /-- No operation in progress; a command can be accepted. -/
  | idle
  /-- A frame's symbols are going out. -/
  | send
  /-- The pin is held low for the reset/latch gap. -/
  | latch
  deriving DecidableEq, Repr

/-- The complete state of the core (R20): nothing else in it holds a value between ticks. The counters are counts that
no port shows (R229, R233); R38 bounds them. -/
structure CoreRegs where
  /-- `COLOR`, the one Pixel sent to every pixel slot (R21). -/
  color : Pixel
  /-- `COLOR_VALID`, whether COLOR has been written since reset (R22). -/
  colorValid : Bool
  /-- `PHASE` (R23). -/
  phase : Phase
  /-- `K`, pixel slot being sent, 0..NUM_LEDS - 1 (R24). -/
  k : Nat
  /-- `J`, bit position within the pixel-frame in wire order, 0..23 (R25). -/
  j : Nat
  /-- `N`, tick within the slot, 0..N_BIT - 1 (R26). -/
  n : Nat
  /-- `L`, tick within the latch gap, 0..N_RESET - 1 (R27). -/
  l : Nat
  /-- `HF`, high-frequency mode (R28). -/
  hf : Bool
  deriving DecidableEq, Repr

/-- The traces (R13, R35): ghost state, oldest first, never read by the core. -/
structure Traces where
  /-- `W`, one level per tick. -/
  w : List Level
  /-- `SIGMA`, one bit per slot, appended at the slot's first tick. -/
  sigma : List Bit
  /-- `FRAMES`, one list of Pixels per completed WRITE. -/
  frames : List (List Pixel)
  deriving DecidableEq, Repr

/-- `SHOWN` (R34, R134, R252). -/
inductive Shown where
  /-- No frame since reset (R37): nothing is said of what the LEDs show. -/
  | nothingYet
  /-- A frame was cut short (R252, U8): nothing is said of what the LEDs show. -/
  | unspecified
  /-- The Pixel shown at each pixel slot, slot 0 first (R134). -/
  | strip (pixels : List Pixel)
  deriving DecidableEq, Repr

/-- What the host drives on the command port this tick (R31): `cmd_valid` and, with it, `cmd`. -/
inductive Offer where
  /-- `cmd_valid` = 0. -/
  | quiet
  /-- `cmd_valid` = 1 with word `w`, kept until accepted (the handshake of R131). -/
  | hold (w : Word)
  /-- `cmd_valid` = 1 with word `w` for this one tick, accepted or not (the host of R256 that loses the command). -/
  | pulse (w : Word)
  deriving DecidableEq, Repr

/-- How far the Sampling state's iteration is (R195). -/
inductive Stage where
  /-- SAMPLE_HUE gathers conversions, oldest first (R192). -/
  | convert (got : List (BitVec 10))
  /-- Issuing HSV2RGB for this hue. -/
  | issueColor (hue : Nat)
  /-- Issuing WRITE. -/
  | issueWrite (hue : Nat)
  /-- WRITE was accepted; waiting until `busy` falls (R190). -/
  | awaitWrite (hue : Nat)
  deriving DecidableEq, Repr

/-- `LOOP_STATE` (R191): Idle is the boot wait (R200) and the inter-sample delay, which is modelled as nothing (R199); Sampling
runs one iteration. -/
inductive LoopState where
  /-- Idle. -/
  | idle
  /-- Sampling, at a stage of the iteration. -/
  | sampling (stage : Stage)
  deriving DecidableEq, Repr

/-- Where the SensorLoop's hue comes from. -/
inductive Sensor where
  /-- The ADC, by SAMPLE_HUE (R192, R201). -/
  | adc
  /-- R207's fake sensor with a no-op delay: hues injected in place of SAMPLE_HUE (C8); Idle for ever when none is left. -/
  | fake (hues : List Nat)
  deriving DecidableEq, Repr

/-- Who drives the command port (R19): the reference host or a test bench. -/
inductive Driver where
  /-- The SensorLoop of 43_sensor_loop_host.md. -/
  | sensorLoop (sensor : Sensor)
  /-- A test bench, with what it offers after the present offer; nothing left is quiet for ever (R137). -/
  | bench (agenda : List Offer)
  deriving DecidableEq, Repr

/-- The core's surroundings: the input ports' values on the coming tick (R31) and the host (R36). -/
structure Env where
  /-- Port `rst` on the coming tick. -/
  rst : Bool
  /-- `rst` on the ticks after it; none left means 0 for ever. -/
  rstPlan : List Bool
  /-- Ports `cmd_valid` and `cmd` on the coming tick. -/
  offer : Offer
  /-- Who drives the command port. -/
  driver : Driver
  /-- `LAST_HUE` (R196). -/
  lastHue : Nat
  /-- `LOOP_STATE` (R191). -/
  loopState : LoopState
  /-- The ticks left of the boot wait `T_BOOT` (R200, log 25). -/
  bootLeft : Nat
  /-- The model's own: how many free values have been drawn (log 5). -/
  draws : Nat
  deriving DecidableEq, Repr

/-- The machine: its parameters, the core, the traces, the strip, the surroundings. -/
structure State where
  /-- The parameters; no step changes them (R8, R9). -/
  cfg : Config
  /-- The core (R20). -/
  regs : CoreRegs
  /-- `W`, `SIGMA`, `FRAMES` (R35). -/
  obs : Traces
  /-- `SHOWN` (R34). -/
  shown : Shown
  /-- Input ports and host (R31, R36). -/
  env : Env
  deriving DecidableEq, Repr

/-- A step never faults: the core raises no exception, trap or fault and takes none (R220, R221). Safe. -/
inductive Fault where
  deriving DecidableEq, Repr

/-- Why a step has no next state. Each is safe: the model stops where the spec gives no meaning (R14, R220). -/
inductive Refusal where
  /-- Raised by an arm of `exec` without a meaning; none is left. Safe. -/
  | notModelled (mnemonic : String)
  /-- `refuse(reserved_command)`: raised by `step` when the accepted word matches no row (R87, U1, U2). Safe. -/
  | reservedCommand
  /-- `refuse(operand_out_of_domain)`: raised by HSV2RGB with `h` > 359, `s` > 100 or `v` > 100 (R168, U3, U4). Safe. -/
  | operandOutOfDomain
  /-- `refuse(color_unwritten)`: raised by WRITE with COLOR_VALID = 0, as R132's step function writes it (R14, R136,
  U5). Safe. -/
  | colorUnwritten
  /-- Raised by EMIT0 and EMIT1 outside PHASE = SEND, where no request is made (R101, R105); `step` never gets there
  (log 16). Safe. -/
  | emitOutsideSend
  deriving DecidableEq, Repr

/-- The core after reset (R37); COLOR's value is the model's (log 3). -/
def CoreRegs.reset : CoreRegs :=
  { color := ⟨0, 0, 0⟩, colorValid := false, phase := .idle, k := 0, j := 0, n := 0, l := 0, hf := false }

/-- The traces after reset: empty (R37). -/
def Traces.empty : Traces := { w := [], sigma := [], frames := [] }

/-- The surroundings after reset: host as R37 says, ports quiet (log 6), the SensorLoop at the port (log 8). -/
def Env.reset (c : Config) : Env :=
  { rst := false, rstPlan := [], offer := .quiet, driver := .sensorLoop .adc, lastHue := c.hueSentinel,
    loopState := .idle, bootLeft := c.bootTicks, draws := 0 }

/-- The machine right after reset (R37), with R9's default parameters. -/
def State.reset : State :=
  { cfg := Config.defaults, regs := CoreRegs.reset, obs := Traces.empty, shown := .nothingYet,
    env := Env.reset Config.defaults }

end Sys2Proof.Machine
end

