-- ==== Sys2Proof/Machine/Operands.lean ====
section
/-! DEFINITION. What WRITE takes from COLOR: the wire order of a Pixel's bits, the channel and bit multiplexers, the
pixel-frame and the frame (R72 to R74, R122 to R126, R138). -/

namespace Sys2Proof.Machine

/-- `GRB(pix) = {pix.G, pix.R, pix.B}` (R73). -/
def grb (p : Pixel) : BitVec 24 := p.g ++ p.r ++ p.b

/-- `framebit(pix, j) = GRB(pix)[23 - j]` (R73). -/
def framebit (p : Pixel) (j : Nat) : Bit := (grb p).getLsbD (23 - j)

/-- The channel multiplexer: `C = div(J, 8)` picks G, R or B (R124). -/
def channelMux (p : Pixel) (c : Nat) : BitVec 8 :=
  match c with
  | 0 => p.g
  | 1 => p.r
  | _ => p.b

/-- The bit serialiser: bit `7 - (J mod 8)` of the channel that `J` selects (R125). -/
def serialBit (p : Pixel) (j : Nat) : Bit := (channelMux p (j / bitsPerChannel)).getLsbD (7 - j % bitsPerChannel)

/-- `pixbits(pix)`, the 24 bits of a pixel-frame in wire order (R73). -/
def pixbits (p : Pixel) : List Bit := (List.range bitsPerPixel).map (framebit p)

/-- The bits of any strip, pixel slot 0 first (R123, R138). -/
def framebitsOf (strip : List Pixel) : List Bit := strip.flatMap pixbits

/-- The strip WRITE sends: COLOR in every pixel slot (R122, R126). -/
def stripOf (color : Pixel) : List Pixel := List.replicate numLeds color

/-- `framebits(COLOR)` (R74, R123). -/
def framebits (color : Pixel) : List Bit := framebitsOf (stripOf color)

/-- R123's loop nest, as the source states it: slots in order, channels G, R, B, bits 7 down to 0. -/
def loopNest (strip : List Pixel) : List Bit :=
  strip.flatMap fun p => [p.g, p.r, p.b].flatMap fun c => [7, 6, 5, 4, 3, 2, 1, 0].map fun m => c.getLsbD m

end Sys2Proof.Machine
end

