-- ==== Sys2Proof/Machine/Flags.lean ====
section
/-! DEFINITION. The core's outputs. It has no condition codes (R29); its only status is `busy`, `cmd_ready` and `hf`, and
its one data output is `dout`, all functions of the state (R30, R31, R32). -/

namespace Sys2Proof.Machine

/-- `BUSY = (PHASE != IDLE)`, on port `busy` (R30). -/
def busy (r : CoreRegs) : Bool := decide (r.phase ≠ .idle)

/-- `cmd_ready = not BUSY` (R30). -/
def cmdReady (r : CoreRegs) : Bool := !busy r

/-- Port `hf` carries HF (R28, R31). -/
def hfOut (r : CoreRegs) : Bool := r.hf

/-- The level of a slot at tick `n` for bit `b`: high if and only if `n < NH(b)` (R104). -/
def slotLevel (c : Config) (b : Bit) (n : Nat) : Level := decide (n < c.nh b)

/-- `dout` (R32): 1 if PHASE = SEND and `N < NH(framebit(COLOR, J))`, else 0. -/
def dout (c : Config) (r : CoreRegs) : Level :=
  match r.phase with
  | .idle => false
  | .send => slotLevel c (framebit r.color r.j) r.n
  | .latch => false

/-- `be_bit = framebit(COLOR, J)`, the request PW makes of BE (R88, R125). -/
def beBit (r : CoreRegs) : Bit := framebit r.color r.j

/-- The number of PHASE's two-bit code (R20). -/
def Phase.code : Phase → BitVec 2
  | .idle => 0
  | .send => 1
  | .latch => 2

/-- Port `cmd_valid` (R31). -/
def cmdValid (o : Offer) : Bool :=
  match o with
  | .quiet => false
  | .hold _ => true
  | .pulse _ => true

/-- Port `cmd` where it is driven (R31). -/
def cmdWord? (o : Offer) : Option Word :=
  match o with
  | .quiet => none
  | .hold w => some w
  | .pulse w => some w

end Sys2Proof.Machine
end

