-- ==== Sys2Proof/Machine/Ops.lean ====
section
/-! DEFINITION. The shared operations of a tick: the sequencer's advance, the ticks of each phase, accepting a command,
loading COLOR, reset (R23, R132, R250). The core takes no exception and returns from none (R220, R227), so no operation
for either exists. -/

namespace Sys2Proof.Machine

/-- What a step of the core answers. -/
abbrev Out := Host.Outcome State Fault Refusal

/-- Go on with a next state; a stop stays the stop it is. -/
def andThen (o : Out) (f : State → State) : Out :=
  match o with
  | .next s => .next (f s)
  | .fault r => .fault r
  | .refused r => .refused r

/-- The tick's sample of the wire: `W <- W ++ [dout]` (R35, R132). -/
def sampleWire (level : Level) (t : Traces) : Traces := { t with w := t.w ++ [level] }

/-- The sequencer's advance in SEND (R132): next tick of the slot, else next bit, else next pixel-frame, else LATCH,
where HF falls (R130). -/
def advance (c : Config) (r : CoreRegs) : CoreRegs :=
  if r.n < c.nBit - 1 then { r with n := r.n + 1 }
  else if r.j < bitsPerPixel - 1 then { r with n := 0, j := r.j + 1 }
  else if r.k < numLeds - 1 then { r with n := 0, j := 0, k := r.k + 1 }
  else { r with n := 0, j := 0, k := 0, hf := false, phase := .latch, l := 0 }

/-- One tick of a slot that sends bit `b` (R104, R132): the level goes on the wire, the bit is counted at the slot's first
tick (R35), the sequencer advances. -/
def slotTick (b : Bit) (s : State) : State :=
  { s with
    obs := { sampleWire (slotLevel s.cfg b s.regs.n) s.obs with
      sigma := if s.regs.n = 0 then s.obs.sigma ++ [b] else s.obs.sigma }
    regs := advance s.cfg s.regs }

/-- One tick of IDLE with no command: the wire is sampled low, nothing else changes (R132). -/
def idleTick (s : State) : State := { s with obs := sampleWire false s.obs }

/-- One tick of the gap (R129, R132); on its last tick the frame is complete: FRAMES gains it, the strip shows it (R134). -/
def latchTick (s : State) : State :=
  if s.regs.l < s.cfg.nReset - 1 then
    { s with obs := sampleWire false s.obs, regs := { s.regs with l := s.regs.l + 1 } }
  else
    { s with
      obs := { sampleWire false s.obs with frames := s.obs.frames ++ [stripOf s.regs.color] }
      regs := { s.regs with l := 0, phase := .idle }
      shown := .strip (stripOf s.regs.color) }

/-- The sequencer's own step, what a tick does when no command is accepted (R132). -/
def sequencerTick (s : State) : State :=
  match s.regs.phase with
  | .idle => idleTick s
  | .send => slotTick (beBit s.regs) s
  | .latch => latchTick s

/-- A command offered this tick: in IDLE it takes effect; while BUSY it is not accepted and the sequencer goes on alone
(R30, R132, V99). -/
def acceptCommand (s : State) (effect : State → Out) : Out :=
  if busy s.regs then .next (sequencerTick s) else effect s

/-- The tick that loads COLOR: all three channels at once, COLOR_VALID set, the wire sampled low (R56, R121, R161). -/
def loadColor (p : Pixel) (s : State) : State :=
  { s with obs := sampleWire false s.obs, regs := { s.regs with color := p, colorValid := true } }

/-- The tick that accepts WRITE with a colour loaded: SEND from its first position, HF set, the wire sampled low (R132). -/
def startFrame (s : State) : State :=
  { s with
    obs := sampleWire false s.obs
    regs := { s.regs with phase := .send, k := 0, j := 0, n := 0, hf := true } }

/-- `rst` as it will be on the tick after this one, and the values left for later ticks; one tick of the boot wait and one
draw are behind us. -/
def nextInputs (e : Env) : Env :=
  { e with rst := e.rstPlan.headD false, rstPlan := e.rstPlan.tail, bootLeft := e.bootLeft - 1, draws := e.draws + 1 }

/-- Whether the host keeps its present offer: a held word that was not accepted (R131). -/
def stillHeld (accepted : Bool) (o : Offer) : Bool :=
  match o with
  | .quiet => false
  | .hold _ => !accepted
  | .pulse _ => false

/-- A test bench's move: keep a held word, else its next offer, else quiet (R131, R137, R256). -/
def benchMove (accepted : Bool) (agenda : List Offer) (e : Env) : Env :=
  if stillHeld accepted e.offer then e
  else { e with offer := agenda.headD .quiet, driver := .bench agenda.tail }

/-- The surroundings on a tick with `rst` = 1: LAST_HUE and LOOP_STATE take R37's values (log 10), the boot wait starts
(R200, R254) and the SensorLoop offers nothing; a test bench goes on, its word not accepted (R226, R250). -/
def resetEnv (c : Config) (e : Env) : Env :=
  let e' := { nextInputs e with lastHue := c.hueSentinel, loopState := .idle, bootLeft := c.bootTicks }
  match e.driver with
  | .sensorLoop _ => { e' with offer := .quiet }
  | .bench agenda => benchMove false agenda e'

/-- SHOWN on a tick with `rst` = 1: nothing yet (R37), but unspecified when a WRITE is cut short (R252, log 12). -/
def shownAfterReset (r : CoreRegs) : Shown := if busy r then .unspecified else .nothingYet

/-- A tick with `rst` = 1 (R250): every element at R37's value, whatever the state and the offer; COLOR is a free value
(log 4), the traces are emptied (log 11). -/
def resetTick (s : State) : State :=
  { s with
    regs := { CoreRegs.reset with color := Config.colorAfterReset s.env.draws }
    obs := Traces.empty
    shown := shownAfterReset s.regs
    env := resetEnv s.cfg s.env }

end Sys2Proof.Machine
end

