-- ==== Sys2Proof/Machine/ColorModel.lean ====
section
/-! DEFINITION. The ColorModel: hsv_to_rgb step by step on exact integers (R150 to R160, R162) and HSV2RGB (R161, R168). -/

namespace Sys2Proof.Machine

/-- `scale8(x) = div(255 * x + 50, 100)`, round(255 x / 100) with a half rounded up (R160). -/
def scale8 (x : Nat) : Nat := (chMax * x + 50) / 100

/-- `sh = div(h * 10, 6)` (R153). -/
def scaledHue (h : Nat) : Nat := h * 10 / 6

/-- `i = div(sh, 100) * 100` (R154). -/
def sectorBase (sh : Nat) : Nat := sh / 100 * 100

/-- `f = sh - i` (R155). -/
def hueFraction (sh : Nat) : Nat := sh - sectorBase sh

/-- `p = div(v * (100 - s), 100)` (R156). -/
def pOf (s v : Nat) : Nat := v * (100 - s) / 100

/-- `q = div(v * (1000 - div(s * f, 10)), 1000)` (R157). -/
def qOf (s v f : Nat) : Nat := v * (1000 - s * f / 10) / 1000

/-- `t = div(v * (1000 - div(s * (100 - f), 10)), 1000)` (R158). -/
def tOf (s v f : Nat) : Nat := v * (1000 - s * (100 - f) / 10) / 1000

/-- The sector number `div(i, 100) mod 6` (R154, R159). -/
def sectorOf (h : Nat) : Nat := sectorBase (scaledHue h) / 100 % 6

/-- R159's table: red, green and blue in percent units, by sector. -/
def sectorRow (sector v p q t : Nat) : Nat × Nat × Nat :=
  match sector with
  | 0 => (v, t, p)
  | 1 => (q, v, p)
  | 2 => (p, v, t)
  | 3 => (p, q, v)
  | 4 => (t, p, v)
  | _ => (v, p, q)

/-- The three channels in percent units on the chromatic branch (R150, R159). -/
def chromaticRow (h s v : Nat) : Nat × Nat × Nat :=
  let f := hueFraction (scaledHue h)
  sectorRow (sectorOf h) v (pOf s v) (qOf s v f) (tOf s v f)

/-- Three percents to a Pixel, each by `scale8` into 8 bits (R81, R160). -/
def scalePixel (row : Nat × Nat × Nat) : Pixel :=
  { r := BitVec.ofNat 8 (scale8 row.1), g := BitVec.ofNat 8 (scale8 row.2.1), b := BitVec.ofNat 8 (scale8 row.2.2) }

/-- `hsv_to_rgb(h, s, v)` (R150): achromatic if `s` = 0 (R152), else the sector's row (R159), scaled (R160). -/
def hsvToRgb (h s v : Nat) : Pixel := if s = 0 then scalePixel (v, v, v) else scalePixel (chromaticRow h s v)

/-- HSV2RGB (R150, R161): COLOR <- hsv_to_rgb(h, s, v), COLOR_VALID <- 1; refused outside the operand domain (R168). -/
def execHsv2rgb (h : BitVec 9) (sat val : BitVec 7) (s : State) : Out :=
  acceptCommand s fun s =>
    if hsvInDomain h sat val then .next (loadColor (hsvToRgb h.toNat sat.toNat val.toNat) s)
    else .refused .operandOutOfDomain

end Sys2Proof.Machine
end

