-- ==== Sys2Proof/Machine/Bitstream.lean ====
section
/-! DEFINITION. The BitstreamEncoder: the symbols (R70, R71) and EMIT0, EMIT1 (R100 to R110). -/

namespace Sys2Proof.Machine

/-- `sym(b) = rep(NH(b), 1) ++ rep(NL(b), 0)` (R71). -/
def sym (c : Config) (b : Bit) : List Level := List.replicate (c.nh b) true ++ List.replicate (c.nl b) false

/-- The wire form of a list of bits, slots back to back (R74, R111). -/
def wireOf (c : Config) (bits : List Bit) : List Level := bits.flatMap (sym c)

/-- One tick of the micro-operation for bit `b`; no request is made outside SEND (R101, R105, log 16). -/
def emitTick (b : Bit) (s : State) : Out :=
  match s.regs.phase with
  | .idle => .refused .emitOutsideSend
  | .send => .next (slotTick b s)
  | .latch => .refused .emitOutsideSend

/-- EMIT0 (R101): this tick of the slot of a 0. -/
def execEmit0 (s : State) : Out := emitTick false s

/-- EMIT1 (R102): this tick of the slot of a 1. -/
def execEmit1 (s : State) : Out := emitTick true s

/-- The whole slot at once, as R101, R102 and R110 give it: `W` gains `sym(b)`, `SIGMA` gains `b`, the sequencer leaves the
slot. N_BIT ticks of the micro-operation from the slot's first tick do the same. -/
def emitSlot (b : Bit) (s : State) : State :=
  { s with
    obs := { s.obs with w := s.obs.w ++ sym s.cfg b, sigma := s.obs.sigma ++ [b] }
    regs := advance s.cfg { s.regs with n := s.cfg.nBit - 1 } }

end Sys2Proof.Machine
end

