-- ==== Sys2Proof/Machine/PixelWriter.lean ====
section
/-! DEFINITION. The PixelWriter: SETRGB (R121) and WRITE (R120, R132, R136), with WRITE's whole effect at once. -/

namespace Sys2Proof.Machine

/-- SETRGB (R121): COLOR <- (r, g, b), COLOR_VALID <- 1. -/
def execSetrgb (r g b : BitVec 8) (s : State) : Out :=
  acceptCommand s fun s => .next (loadColor { r := r, g := g, b := b } s)

/-- WRITE (R120), the tick that accepts it (R132): `if COLOR_VALID = 0 then
refuse(color_unwritten)` (R132, R136). -/
def execWrite (s : State) : Out :=
  acceptCommand s fun s => if s.regs.colorValid then .next (startFrame s) else .refused .colorUnwritten

/-- What one WRITE puts on the wire after the accepting tick: the frame's symbols, then the gap (R74, R75, R120). -/
def frameWave (c : Config) (color : Pixel) : List Level :=
  wireOf c (framebits color) ++ List.replicate c.nReset false

/-- `24 * NUM_LEDS * N_BIT + N_RESET` ticks (R120). -/
def frameTicks (c : Config) : Nat := bitsPerPixel * numLeds * c.nBit + c.nReset

/-- WRITE as one big step, R120's command-level pseudocode. -/
def writeWhole (s : State) : State :=
  { s with
    obs := {
      w := s.obs.w ++ frameWave s.cfg s.regs.color
      sigma := s.obs.sigma ++ framebits s.regs.color
      frames := s.obs.frames ++ [stripOf s.regs.color] }
    regs := { s.regs with phase := .idle, k := 0, j := 0, n := 0, l := 0, hf := false }
    shown := .strip (stripOf s.regs.color) }

end Sys2Proof.Machine
end

