-- ==== Sys2Proof/Machine/Dispatch.lean ====
section
/-! DEFINITION. One arm per operation of the opcode map (R86): the core's tick that runs it. -/

namespace Sys2Proof.Machine

def exec (i : Instr) (s : State) : Host.Outcome State Fault Refusal :=
  match i with
  | .setrgb r g b => Sys2Proof.Machine.execSetrgb r g b s
  | .hsv2rgb h sat val => Sys2Proof.Machine.execHsv2rgb h sat val s
  | .write => Sys2Proof.Machine.execWrite s
  | .emit0 => Sys2Proof.Machine.execEmit0 s
  | .emit1 => Sys2Proof.Machine.execEmit1 s

end Sys2Proof.Machine
end

