-- ==== Sys2Proof/Machine/SensorLoop.lean ====
section
/-! DEFINITION. The reference host: SAMPLE_HUE (R192 to R194), LOOP_ITER (R195 to R198), and the move a host makes beside
each tick of the core (R190, R191), with a test bench's programs (R137, R203). -/

namespace Sys2Proof.Machine

/-- The average of the conversions, remainder discarded (R192). -/
def averageRaw (conversions : List (BitVec 10)) : Nat := (conversions.map BitVec.toNat).sum / adcSamples

/-- The hue map `div(raw * 6, 25) + 120` (R193). -/
def mapHue (raw : Nat) : Nat := raw * hueMul / hueDiv + hueOff

/-- The clip: 360 or more becomes 0 (R194, C6). -/
def clipHue (hue : Nat) : Nat := if hue ≥ 360 then 0 else hue

/-- SAMPLE_HUE on its ten conversions (R192). -/
def sampleHue (conversions : List (BitVec 10)) : Nat := clipHue (mapHue (averageRaw conversions))

/-- The conversion command of a render: `HSV2RGB hue, 100, 20` (R195, R198). -/
def renderCommand (hue : Nat) : Instr :=
  .hsv2rgb (BitVec.ofNat 9 hue) (BitVec.ofNat 7 renderS) (BitVec.ofNat 7 renderV)

/-- The word of a render's conversion command. -/
def renderWord (hue : Nat) : Word := encodeHsv (BitVec.ofNat 9 hue) (BitVec.ofNat 7 renderS) (BitVec.ofNat 7 renderV)

/-- LOOP_ITER on a sampled hue (R195): the commands issued, and LAST_HUE after. -/
def loopIter (lastHue hue : Nat) : List Instr × Nat :=
  (if hue ≠ lastHue then [renderCommand hue, .write] else [], hue)

/-- LOOP_ITER for each hue in turn (R195, E8): the commands each iteration issues. -/
def loopRun (lastHue : Nat) : List Nat → List (List Instr)
  | [] => []
  | hue :: rest => (loopIter lastHue hue).1 :: loopRun (loopIter lastHue hue).2 rest

/-- The end of an iteration: LAST_HUE <- hue whether or not it rendered, then Idle (R195, R197). -/
def finishIteration (hue : Nat) (e : Env) : Env :=
  { e with lastHue := hue, loopState := .idle, offer := .quiet }

/-- The comparison of R195: a changed hue is rendered, the conversion first; an unchanged one is not. -/
def decideRender (hue : Nat) (e : Env) : Env :=
  if hue ≠ e.lastHue then
    { e with loopState := .sampling (.issueColor hue), offer := .hold (renderWord hue) }
  else finishIteration hue e

/-- The conversions so far: fewer than ten, gather on; the tenth gives the hue (R192). -/
def gatherConversions (got : List (BitVec 10)) (e : Env) : Env :=
  if got.length < adcSamples then { e with loopState := .sampling (.convert got) } else decideRender (sampleHue got) e

/-- SAMPLE_HUE's progress in one tick, `draw` numbering the free values: a poll that finds the conversion unfinished stays
(R201, R202); a fake sensor gives its next hue at once (R207). -/
def sampleMove (draw : Nat) (got : List (BitVec 10)) (sensor : Sensor) (e : Env) : Env :=
  match sensor with
  | .adc => if Config.adcBusy draw then e else gatherConversions (got ++ [Config.adcResult draw]) e
  | .fake [] => e
  | .fake (hue :: rest) => decideRender hue { e with driver := .sensorLoop (.fake rest) }

/-- Whether Idle lasts another tick: while ticks of the boot wait remain (R200), and no longer, since "the delay is modelled as
nothing" (R199). A fake sensor's loop has a no-op delay too, and rests when its hues are used up (R207). -/
def staysIdle (bootLeft : Nat) (sensor : Sensor) : Bool :=
  match sensor with
  | .adc => bootLeft != 0
  | .fake hues => hues.isEmpty

/-- The SensorLoop's move beside one tick of the core: `accepted` says whether its offer was taken, `coreIdle` whether the
core is in IDLE after the tick (R190, R191, R195). -/
def loopMove (draw : Nat) (accepted coreIdle : Bool) (sensor : Sensor) (e : Env) : Env :=
  match e.loopState with
  | .idle => if staysIdle e.bootLeft sensor then e else { e with loopState := .sampling (.convert []) }
  | .sampling (.convert got) => sampleMove draw got sensor e
  | .sampling (.issueColor hue) =>
    if accepted then { e with loopState := .sampling (.issueWrite hue), offer := .hold encodeWrite } else e
  | .sampling (.issueWrite hue) =>
    if accepted then { e with loopState := .sampling (.awaitWrite hue), offer := .quiet } else e
  | .sampling (.awaitWrite hue) => if coreIdle then finishIteration hue e else e

/-- The host's move beside one tick: the inputs of the next tick (R190, R200). -/
def hostEnv (accepted coreIdle : Bool) (e : Env) : Env :=
  match e.driver with
  | .sensorLoop sensor => loopMove e.draws accepted coreIdle sensor (nextInputs e)
  | .bench agenda => benchMove accepted agenda (nextInputs e)

/-- The host's move on the state the core's tick has left: only the surroundings change. -/
def hostMove (accepted : Bool) (s : State) : State := { s with env := hostEnv accepted (cmdReady s.regs) s.env }

/-- A program on the command port (R137): the words offered one after another with no idle tick between, each held until
accepted. -/
def loadProgram (words : List Word) (s : State) : State :=
  match words with
  | [] => { s with env := { s.env with offer := .quiet, driver := .bench [] } }
  | w :: rest => { s with env := { s.env with offer := .hold w, driver := .bench (rest.map Offer.hold) } }

/-- The words of a list of commands; a micro-operation has none (R88). -/
def programWords (commands : List Instr) : List Word := commands.filterMap Instr.word?

/-- The alternate top-level program (R203): one fixed colour rendered, then nothing. Which colour, and whether as HSV or
RGB, is open (U17, N9): it is the argument. -/
def alternateProgram (color : Pseudo) : List Instr := color.expand

end Sys2Proof.Machine
end

