-- ==== Sys2Proof/Machine/Fetch.lean ====
section
/-! DEFINITION. What a tick runs (R132): reset first, then the command on the port in IDLE, PW's request to BE in SEND, the
gap in LATCH; and how an operation is put where a tick finds it. -/

namespace Sys2Proof.Machine

/-- What the coming tick does. -/
inductive Fetched where
  /-- `rst` = 1: reset wins over everything (R226, R250). -/
  | reset
  /-- No operation: IDLE with nothing offered, or a tick of the gap. -/
  | quiet
  /-- Run this operation; `accepted` says whether it came from the command port. -/
  | run (i : Instr) (accepted : Bool)
  /-- The word offered in IDLE is reserved (R87). -/
  | reserved (e : DecodeError)
  deriving DecidableEq, Repr

/-- The command port in IDLE (R84, R132). -/
def fetchCommand (o : Offer) : Fetched :=
  match cmdWord? o with
  | none => .quiet
  | some w =>
    match decode w with
    | .ok i => .run i true
    | .error e => .reserved e

/-- What the coming tick does in state `s` (R132): in SEND and LATCH the port is ignored. -/
def fetch (s : State) : Fetched :=
  if s.env.rst then .reset
  else
    match s.regs.phase with
    | .idle => fetchCommand s.env.offer
    | .send => .run (decodeRequest (beBit s.regs)) false
    | .latch => .quiet

/-- A command word on the port of an idle core, offered by a test bench with nothing after it (log 18). -/
def placeCommand (w : Word) (s : State) : State :=
  { s with
    regs := { s.regs with phase := .idle, k := 0, j := 0, n := 0, l := 0, hf := false }
    env := { s.env with rst := false, offer := .hold w, driver := .bench [] } }

/-- A request on `be_bit`: the first tick of a frame whose COLOR has that bit as G[7], the first bit sent (log 18). -/
def placeRequest (b : Bit) (s : State) : State :=
  { s with
    regs := { s.regs with
      color := { s.regs.color with g := BitVec.ofBool b ++ s.regs.color.g.extractLsb' 0 7 }
      colorValid := true, phase := .send, k := 0, j := 0, n := 0, l := 0, hf := true }
    env := { s.env with rst := false } }

/-- A table row's bits put where the next tick finds them. -/
def placeTableWord (nbits w : Nat) (s : State) : State :=
  if nbits ≤ 8 then placeRequest (decide (w % 2 = 1)) s else placeCommand (BitVec.ofNat 32 w) s

end Sys2Proof.Machine
end

