-- ==== Sys2Proof/Machine/Step.lean ====
section
/-! DEFINITION. One step: one tick of the core (R132) and the host's move beside it (R61, R190). -/

namespace Sys2Proof.Machine

/-- One tick of `clk`. A refused step ends the run (R14). -/
def step (s : State) : Host.Outcome State Fault Refusal :=
  match fetch s with
  | .reset => .next (resetTick s)
  | .quiet => .next (hostMove false (sequencerTick s))
  | .run i accepted => andThen (exec i s) (hostMove accepted)
  | .reserved _ => .refused .reservedCommand

/-- `s` with a table row's operation where the next step finds it (log 18). -/
def State.withFetchWord (s : State) (nbits w : Nat) : State := placeTableWord nbits w s

end Sys2Proof.Machine
end

