-- ==== Sys2Proof/Machine/Assembler.lean ====
section
/-! DEFINITION. The assembler syntax of R90 and the pseudo-instructions of R91, over lists of characters. -/

namespace Sys2Proof.Machine

/-- A digit's value; decimal digits, and for base 16 the letters of either case (R11, log 21). -/
def digitValue (base : Nat) (c : Char) : Option Nat :=
  let n := c.toNat
  let d :=
    if 48 ≤ n ∧ n ≤ 57 then n - 48
    else if 65 ≤ n ∧ n ≤ 70 then n - 55
    else if 97 ≤ n ∧ n ≤ 102 then n - 87
    else base
  if d < base then some d else none

/-- Digits to a number, most significant first, starting from `acc`. -/
def digitsValue (base : Nat) (acc : Nat) : List Char → Option Nat
  | [] => some acc
  | c :: cs =>
    match digitValue base c with
    | some d => digitsValue base (acc * base + d) cs
    | none => none

/-- An operand: decimal, or hexadecimal after `0x` (R11, R90). -/
def operandValue : List Char → Option Nat
  | [] => none
  | ['0', 'x'] => none
  | '0' :: 'x' :: digits => digitsValue 16 0 digits
  | digits => digitsValue 10 0 digits

/-- A line's tokens: words, and each comma by itself; blanks separate, `;` starts a comment (R90). -/
inductive Token where
  | comma
  | word (text : List Char)
  deriving DecidableEq, Repr

/-- One more character in front of a list of tokens; `joined` says whether it touches the word that follows. -/
def pushChar (c : Char) (ts : List Token × Bool) : List Token × Bool :=
  if c = ' ' ∨ c = '\t' then (ts.1, false)
  else if c = ',' then (.comma :: ts.1, false)
  else
    match ts with
    | (.word text :: rest, true) => (.word (c :: text) :: rest, true)
    | (rest, _) => (.word [c] :: rest, true)

/-- The tokens of a line without its comment. -/
def tokensOfLine (line : List Char) : List Token :=
  ((line.takeWhile fun c => c ≠ ';').foldr pushChar ([], false)).1

/-- The operands of a line: words separated by single commas (R90). -/
def operandsOf : List Token → Option (List Nat)
  | [] => some []
  | [.word w] => (operandValue w).map fun x => [x]
  | .word w :: .comma :: rest =>
    match operandValue w, rest, operandsOf rest with
    | some x, _ :: _, some xs => some (x :: xs)
    | _, _, _ => none
  | _ => none

/-- The well-formed instructions a line's mnemonic and operands stand for (R90, R91); `none` for anything else. -/
def lineMeaning (mnemonic : List Char) (operands : List Nat) : Option (List Instr) :=
  let rgb := fun r g b : Nat => decide (r ≤ chMax ∧ g ≤ chMax ∧ b ≤ chMax)
  let hsv := fun h s v : Nat => decide (h ≤ hMax ∧ s ≤ pctMax ∧ v ≤ pctMax)
  match mnemonic, operands with
  | ['S', 'E', 'T', 'R', 'G', 'B'], [r, g, b] =>
    if rgb r g b then some [.setrgb (BitVec.ofNat 8 r) (BitVec.ofNat 8 g) (BitVec.ofNat 8 b)] else none
  | ['H', 'S', 'V', '2', 'R', 'G', 'B'], [h, s, v] =>
    if hsv h s v then some [.hsv2rgb (BitVec.ofNat 9 h) (BitVec.ofNat 7 s) (BitVec.ofNat 7 v)] else none
  | ['W', 'R', 'I', 'T', 'E'], [] => some [.write]
  | ['S', 'H', 'O', 'W'], [h, s, v] =>
    if hsv h s v then some (Pseudo.showHsv (BitVec.ofNat 9 h) (BitVec.ofNat 7 s) (BitVec.ofNat 7 v)).expand else none
  | ['R', 'E', 'N', 'D', 'E', 'R'], [h] =>
    if h ≤ hMax then some (Pseudo.render (BitVec.ofNat 9 h)).expand else none
  | ['F', 'I', 'L', 'L'], [r, g, b] =>
    if rgb r g b then some (Pseudo.fill (BitVec.ofNat 8 r) (BitVec.ofNat 8 g) (BitVec.ofNat 8 b)).expand else none
  | _, _ => none

/-- One line of a program; a blank line or a comment gives no command (R90). -/
def assembleLine (line : List Char) : Option (List Instr) :=
  match tokensOfLine line with
  | [] => some []
  | .word mnemonic :: rest =>
    match operandsOf rest with
    | some operands => lineMeaning mnemonic operands
    | none => none
  | .comma :: _ => none

/-- A program, one command a line, to the commands in order (R90); `none` if a line is no command. -/
def assemble : List (List Char) → Option (List Instr)
  | [] => some []
  | line :: lines =>
    match assembleLine line, assemble lines with
    | some now, some later => some (now ++ later)
    | _, _ => none

end Sys2Proof.Machine
end

