-- ==== Sys2Proof/Machine/Wire.lean ====
section
/-! DEFINITION. Reading a wire trace back (R78), the observation's decoder: no part of the core. -/

namespace Sys2Proof.Machine

/-- A maximal run of one level. -/
structure Run where
  level : Level
  len : Nat
  deriving DecidableEq, Repr

/-- One more level in front of a list of runs. -/
def pushRun (x : Level) (rs : List Run) : List Run :=
  match rs with
  | [] => [{ level := x, len := 1 }]
  | r :: rest => if r.level = x then { r with len := r.len + 1 } :: rest else { level := x, len := 1 } :: r :: rest

/-- The list cut into runs (R78). -/
def runsOf : List Level → List Run
  | [] => []
  | x :: xs => pushRun x (runsOf xs)

/-- What a high run and the low run after it decode as. -/
inductive WireToken where
  /-- A symbol of this bit. -/
  | bit (b : Bit)
  /-- The gap: a low run of at least N_RESET ticks after a symbol. -/
  | endOfFrame
  deriving DecidableEq, Repr

/-- R78: a high run of NH(b) before a low run of at least NL(b) is bit `b`; any other high run is not a symbol. -/
def symbolOf (c : Config) (high low : Nat) : Option Bit :=
  if high = c.n0h ∧ c.nl false ≤ low then some false
  else if high = c.n1h ∧ c.nl true ≤ low then some true
  else none

/-- The tokens of a list of runs that starts at a slot boundary; `none` where something is no symbol (R78). -/
def tokensOf (c : Config) : List Run → Option (List WireToken)
  | [] => some []
  | [_] => none
  | hi :: lo :: rest =>
    if hi.level = true ∧ lo.level = false then
      match symbolOf c hi.len lo.len, tokensOf c rest with
      | some b, some ts => some (.bit b :: ((if c.nReset ≤ lo.len then [.endOfFrame] else []) ++ ts))
      | _, _ => none
    else none

/-- R78's decoder on a trace that starts at a slot boundary. -/
def readWire (c : Config) (levels : List Level) : Option (List WireToken) := tokensOf c (runsOf levels)

/-- The same on a trace that begins with an idle line: the first slot starts at the first rising edge (R75). -/
def readTrace (c : Config) (levels : List Level) : Option (List WireToken) :=
  readWire c (levels.dropWhile fun level => level = false)

/-- The bits among the tokens. -/
def tokenBits (ts : List WireToken) : List Bit :=
  ts.filterMap fun t => match t with
    | .bit b => some b
    | .endOfFrame => none

/-- The bits a trace carries (R78, R112). -/
def readBits (c : Config) (levels : List Level) : Option (List Bit) := (readWire c levels).map tokenBits

end Sys2Proof.Machine
end

