-- ==== Sys2Proof/Safety.lean ====
section
/-! DEFINITION. What counts as a safe run, in the terms statements use: R38's invariant, the premises a host owes the core
(R168, R205, R252 to R255), what the strip shows under R134's premise on the first gap, the SensorLoop's discipline and its
boot wait. -/

namespace Sys2Proof.Machine

/-- The step has a next state: it is not refused (R14). -/
def Safe (s : State) : Prop := ∃ t, step s = .next t

/-- Slots started in the frame in progress: SIGMA counts a slot at its first tick (R35, R110); in LATCH all 1440 are. -/
def slotsInFrame (r : CoreRegs) : Nat :=
  match r.phase with
  | .idle => 0
  | .send => bitsPerPixel * r.k + r.j + (if r.n = 0 then 0 else 1)
  | .latch => bitsPerPixel * numLeds

/-- Slots started since reset: those of every completed frame and of the one in progress (R127). -/
def startedSlots (s : State) : Nat := bitsPerPixel * numLeds * s.obs.frames.length + slotsInFrame s.regs

/-- R38's invariants of one state: the counters' ranges, canonical outside their phase, HF exactly in SEND, a colour loaded
whenever busy. -/
structure RegsInv (c : Config) (r : CoreRegs) : Prop where
  k_lt : r.k < numLeds
  j_lt : r.j < bitsPerPixel
  n_lt : r.n < c.nBit
  l_lt : r.l < c.nReset
  send_only : r.phase ≠ .send → r.k = 0 ∧ r.j = 0 ∧ r.n = 0
  latch_only : r.phase ≠ .latch → r.l = 0
  hf_iff : r.hf = true ↔ r.phase = .send
  busy_valid : r.phase ≠ .idle → r.colorValid = true

/-- R38's invariant: valid parameters, the core's part, and SIGMA as long as the slots started, hence a multiple of 24
whenever PHASE is not SEND. -/
structure Inv (s : State) : Prop where
  cfg_valid : s.cfg.Valid
  regs_inv : RegsInv s.cfg s.regs
  sigma_length : s.obs.sigma.length = startedSlots s

/-- `rst` is 0 on each of the coming `ticks` ticks; what it is afterwards is left open (R133; past the plan it is 0). -/
def RstLowFor (ticks : Nat) (e : Env) : Prop := ∀ x ∈ (e.rst :: e.rstPlan).take ticks, x = false

/-- Words a host may offer in this state (R87, R136, R168): a command's, in its domain, WRITE only with a colour loaded. -/
def LegalWord (r : CoreRegs) (w : Word) : Prop :=
  ∃ i, decode w = .ok i ∧ i.wf = true ∧ (i = .write → r.colorValid = true)

/-- R254's premise, from the trace: since reset the line was low for N_RESET ticks before its first high level. -/
def firstGapHeld (s : State) : Bool := decide (s.cfg.nReset ≤ (s.obs.w.takeWhile fun level => level = false).length)

/-- What may be said of the strip: SHOWN when no frame is going out (R134, U8) and the first frame came late enough
(R254, U11), else nothing (log 13). R134's other premises are about the world outside. -/
def stripShows (s : State) : Shown := if s.regs.phase = .idle ∧ firstGapHeld s = true then s.shown else .unspecified

/-- A sensor whose hues are all hues (R194; a fake one may be given any, C8). -/
def SensorLegal : Sensor → Prop
  | .adc => True
  | .fake hues => ∀ hue ∈ hues, hue ≤ hMax

/-- The SensorLoop between ticks: what it offers at each stage, and that the core is idle where it must be (R190, R195). -/
def LoopOffers (r : CoreRegs) (offer : Offer) : LoopState → Prop
  | .idle => offer = .quiet ∧ r.phase = .idle
  | .sampling (.convert _) => offer = .quiet ∧ r.phase = .idle
  | .sampling (.issueColor hue) => offer = .hold (renderWord hue) ∧ hue ≤ hMax ∧ r.phase = .idle
  | .sampling (.issueWrite hue) => offer = .hold encodeWrite ∧ hue ≤ hMax ∧ r.phase = .idle ∧ r.colorValid = true
  | .sampling (.awaitWrite hue) => offer = .quiet ∧ hue ≤ hMax

/-- The SensorLoop drives the port and keeps its discipline. -/
def LoopInv (s : State) : Prop :=
  match s.env.driver with
  | .sensorLoop sensor => SensorLegal sensor ∧ LoopOffers s.regs s.env.offer s.env.loopState
  | .bench _ => False

/-- The comparison of an iteration between `s` and `t` (R195): a changed hue is being rendered, its conversion command offered
and LAST_HUE not yet written; an unchanged one is not, and the iteration is over. -/
def RendersOnChange (s t : State) (hue : Nat) : Prop :=
  (hue ≠ s.env.lastHue →
    t.env.loopState = .sampling (.issueColor hue) ∧ t.env.offer = .hold (encodeHsv (BitVec.ofNat 9 hue) 100 20) ∧
      t.env.lastHue = s.env.lastHue) ∧
  (hue = s.env.lastHue → t.env.loopState = .idle ∧ t.env.offer = .quiet ∧ t.env.lastHue = hue)

/-- The boot wait covers R254's requirement (R200): with the SensorLoop and its ADC at the port, either the first gap has been
held, or the loop is still Idle, the line has been low since reset, and the low ticks with those left of the wait make
N_RESET (log 25). -/
def BootInv (s : State) : Prop :=
  s.env.driver = .sensorLoop .adc ∧
    (firstGapHeld s = true ∨
      (s.env.loopState = .idle ∧ (∀ level ∈ s.obs.w, level = false) ∧ s.cfg.nReset ≤ s.obs.w.length + s.env.bootLeft))

/-- R137: a test bench's program has ended when its last word has been accepted and the core is in IDLE again. -/
def RunEnded (s : State) : Prop := s.env.driver = .bench [] ∧ s.env.offer = .quiet ∧ s.regs.phase = .idle

/-- `k` steps, stopping at the first that is refused (R14); Laws/Run.lean shows it is the host's `Host.Core.run`. -/
def runSteps : Nat → State → Out
  | 0, s => .next s
  | k + 1, s =>
    match step s with
    | .next t => runSteps k t
    | .fault r => .fault r
    | .refused r => .refused r

end Sys2Proof.Machine
end

