-- ==== Sys2Proof/Certificates/Slice0/Obligations.lean ====
section
/-! DEFINITION. The statements for the provers: what the rules of spec/ say the core and its host do. -/

open Sys2Proof Sys2Proof.Machine

/-! ## Encodings -/

/-- Words written out from R84's formats, and 95_test_vectors.md's, decode to the commands they stand for (R85, R86, R88). -/
def Obligations.DecodeOfSpecWords : Prop :=
  decode 0b00000000_00000100_00000000_00000000#32 = .ok (.setrgb 4 0 0) ∧
  decode 0b00000000_10100101_00111100_10000001#32 = .ok (.setrgb 0xA5 0x3C 0x81) ∧
  decode 0b010000000_011110000_1100100_0010100#32 = .ok (.hsv2rgb 240 100 20) ∧
  decode 0b010000000_101100111_0000001_1100100#32 = .ok (.hsv2rgb 359 1 100) ∧
  decode 0b10000000_00000000_00000000_00000000#32 = .ok .write ∧
  decodeRequest false = .emit0 ∧ decodeRequest true = .emit1

/-- Every operation, with every operand at every value its field admits, is read back from its own encoding
(R84, R85, R86, R88). -/
def Obligations.DecodeOfEncodeIsIdentity : Prop := ∀ i : Instr, decodeEncoded (encode i) = .ok i

/-- Every word has at most one meaning: a word that decodes is the encoding of what it decodes to (R86, R89). -/
def Obligations.EncodeOfDecodeIsTheWord : Prop := ∀ (w : Word) (i : Instr), decode w = .ok i → encode i = .word w

/-- R86 with R85: a word is a row's command exactly when `(w and mask) = match`, its operands are the fields' bits, and no
word matches two command rows. -/
def Obligations.RowsMatchByMask : Prop :=
  ∀ w : Word,
    (w &&& 0xFF000000#32 = 0x00000000#32 →
      decode w = .ok (.setrgb (w.extractLsb' 16 8) (w.extractLsb' 8 8) (w.extractLsb' 0 8))) ∧
    (w &&& 0xFF800000#32 = 0x40000000#32 →
      decode w = .ok (.hsv2rgb (w.extractLsb' 14 9) (w.extractLsb' 7 7) (w.extractLsb' 0 7))) ∧
    (w &&& 0xFFFFFFFF#32 = 0x80000000#32 → decode w = .ok .write) ∧
    ((∃ i, decode w = .ok i) →
      w &&& 0xFF000000#32 = 0x00000000#32 ∨ w &&& 0xFF800000#32 = 0x40000000#32 ∨ w &&& 0xFFFFFFFF#32 = 0x80000000#32) ∧
    ¬ (w &&& 0xFF000000#32 = 0x00000000#32 ∧ w &&& 0xFF800000#32 = 0x40000000#32) ∧
    ¬ (w &&& 0xFF000000#32 = 0x00000000#32 ∧ w &&& 0xFFFFFFFF#32 = 0x80000000#32) ∧
    ¬ (w &&& 0xFF800000#32 = 0x40000000#32 ∧ w &&& 0xFFFFFFFF#32 = 0x80000000#32)

/-- R87: in IDLE, `op` = 11 or any must-be-zero bit set is refused as reserved_command; a word of format H with `h` above
359 or `s` or `v` above 100 is refused as operand_out_of_domain. -/
def Obligations.ReservedAndOutOfDomainWordsRefused : Prop :=
  ∀ (s : State) (w : Word), s.env.rst = false → s.regs.phase = .idle → cmdWord? s.env.offer = some w →
    ((w.extractLsb' 30 2 = 0b11#2 ∨
        (w.extractLsb' 30 2 = 0b00#2 ∧ w.extractLsb' 24 6 ≠ 0#6) ∨
        (w.extractLsb' 30 2 = 0b01#2 ∧ w.extractLsb' 23 7 ≠ 0#7) ∨
        (w.extractLsb' 30 2 = 0b10#2 ∧ w.extractLsb' 0 30 ≠ 0#30)) →
      step s = .refused .reservedCommand) ∧
    (w.extractLsb' 30 2 = 0b01#2 → w.extractLsb' 23 7 = 0#7 →
      (360 ≤ (w.extractLsb' 14 9).toNat ∨ 101 ≤ (w.extractLsb' 7 7).toNat ∨ 101 ≤ (w.extractLsb' 0 7).toNat) →
      step s = .refused .operandOutOfDomain)

/-! ## What each operation does, and where it completes -/

/-- SETRGB in IDLE (R121, R132): COLOR and COLOR_VALID written, the tick's sample of the wire low, nothing else changed.
That `W` gains the sample although R121 says no trace changes is log 15. -/
def Obligations.SetrgbLoadsColor : Prop :=
  ∀ (s : State) (r g b : BitVec 8), s.regs.phase = .idle →
    exec (.setrgb r g b) s = .next { s with
      regs := { s.regs with color := { r := r, g := g, b := b }, colorValid := true }
      obs := { s.obs with w := s.obs.w ++ [false] } }

/-- HSV2RGB in IDLE, operands in the domain (R150, R161): COLOR takes the conversion, COLOR_VALID 1, nothing else but the
tick's low sample. -/
def Obligations.Hsv2rgbLoadsColor : Prop :=
  ∀ (s : State) (h : BitVec 9) (sat val : BitVec 7), s.regs.phase = .idle →
    h.toNat < 360 → sat.toNat ≤ 100 → val.toNat ≤ 100 →
    exec (.hsv2rgb h sat val) s = .next { s with
      regs := { s.regs with color := hsvToRgb h.toNat sat.toNat val.toNat, colorValid := true }
      obs := { s.obs with w := s.obs.w ++ [false] } }

/-- WRITE in IDLE with a colour loaded (R120, R130, R132): SEND at its first position, HF set, the accepting tick low. -/
def Obligations.WriteStartsFrame : Prop :=
  ∀ s : State, s.regs.phase = .idle → s.regs.colorValid = true →
    exec .write s = .next { s with
      regs := { s.regs with phase := .send, k := 0, j := 0, n := 0, hf := true }
      obs := { s.obs with w := s.obs.w ++ [false] } }

/-- R136: WRITE with COLOR_VALID = 0 is refused as color_unwritten; so a WRITE offered first after reset is. -/
def Obligations.WriteWithoutColorRefused : Prop :=
  (∀ s : State, s.regs.phase = .idle → s.regs.colorValid = false → exec .write s = .refused .colorUnwritten) ∧
  step (loadProgram [0x80000000#32] State.reset) = .refused .colorUnwritten

/-- R168: HSV2RGB outside the domain is refused, whatever else holds. -/
def Obligations.HsvOutOfDomainRefused : Prop :=
  ∀ (s : State) (h : BitVec 9) (sat val : BitVec 7), s.regs.phase = .idle →
    (360 ≤ h.toNat ∨ 101 ≤ sat.toNat ∨ 101 ≤ val.toNat) →
    exec (.hsv2rgb h sat val) s = .refused .operandOutOfDomain

/-- EMIT0 and EMIT1 in SEND (R101, R102, R104, R132): this tick's level is high exactly while `N < NH(b)`, SIGMA gains the
bit on the slot's first tick, and the sequencer goes one tick on. -/
def Obligations.EmitTickDrivesItsSlot : Prop :=
  ∀ s : State, s.regs.phase = .send →
    exec .emit0 s = .next { s with
      regs := advance s.cfg s.regs
      obs := { s.obs with
        w := s.obs.w ++ [decide (s.regs.n < s.cfg.n0h)]
        sigma := s.obs.sigma ++ (if s.regs.n = 0 then [false] else []) } } ∧
    exec .emit1 s = .next { s with
      regs := advance s.cfg s.regs
      obs := { s.obs with
        w := s.obs.w ++ [decide (s.regs.n < s.cfg.n1h)]
        sigma := s.obs.sigma ++ (if s.regs.n = 0 then [true] else []) } }

/-- The model's choice for a request outside SEND, which R105 says nobody makes: refused by name (log 16). -/
def Obligations.EmitOutsideSendRefused : Prop :=
  ∀ s : State, s.regs.phase ≠ .send →
    exec .emit0 s = .refused .emitOutsideSend ∧ exec .emit1 s = .refused .emitOutsideSend

/-- A command offered while busy is not accepted and the tick is the sequencer's own (R30, R132; V99): in SEND the micro-operation
of the bit being sent, in LATCH the gap's tick, whose last one completes the frame. That exec answers so is log 17. -/
def Obligations.CommandWhileBusyIsIgnored : Prop :=
  ∀ (i : Instr) (s : State), i.isCommand = true →
    (s.regs.phase = .send → exec i s = exec (if framebit s.regs.color s.regs.j then .emit1 else .emit0) s) ∧
    (s.regs.phase = .latch → exec i s = .next
      (if s.regs.l < s.cfg.nReset - 1 then
        { s with
          obs := { s.obs with w := s.obs.w ++ [false] }
          regs := { s.regs with l := s.regs.l + 1 } }
       else
        { s with
          obs := { s.obs with w := s.obs.w ++ [false], frames := s.obs.frames ++ [List.replicate 60 s.regs.color] }
          regs := { s.regs with l := 0, phase := .idle }
          shown := .strip (List.replicate 60 s.regs.color) }))

/-! ## Frames: what stays unchanged -/

/-- The frame of SETRGB, HSV2RGB and WRITE accepted in IDLE: parameters, ports, host, SIGMA, FRAMES, SHOWN and L are
unchanged; the two loads change COLOR and COLOR_VALID only, WRITE neither of them (R57, R121, R161, R132). That `W` gains the
tick's sample on SETRGB too, although R121 says no trace changes, is the model's reading, log 15. -/
def Obligations.CommandFrame : Prop :=
  ∀ (i : Instr) (s t : State), s.regs.phase = .idle → i.isCommand = true → exec i s = .next t →
    t.cfg = s.cfg ∧ t.env = s.env ∧ t.shown = s.shown ∧ t.obs.sigma = s.obs.sigma ∧ t.obs.frames = s.obs.frames ∧
    t.obs.w = s.obs.w ++ [false] ∧ t.regs.l = s.regs.l ∧
    (i ≠ .write → t.regs.phase = s.regs.phase ∧ t.regs.k = s.regs.k ∧ t.regs.j = s.regs.j ∧ t.regs.n = s.regs.n ∧
      t.regs.hf = s.regs.hf) ∧
    (i = .write → t.regs.color = s.regs.color ∧ t.regs.colorValid = s.regs.colorValid)

/-- The frame of EMIT0 and EMIT1: COLOR, COLOR_VALID, parameters, ports, host, FRAMES and SHOWN are unchanged, L is unless
the frame ends, and PHASE and HF change only where the last slot of the frame ends (R110, R130, R132). -/
def Obligations.EmitFrame : Prop :=
  ∀ (i : Instr) (s t : State), i = .emit0 ∨ i = .emit1 → exec i s = .next t →
    t.cfg = s.cfg ∧ t.env = s.env ∧ t.shown = s.shown ∧ t.obs.frames = s.obs.frames ∧
    t.regs.color = s.regs.color ∧ t.regs.colorValid = s.regs.colorValid ∧
    (¬ (s.cfg.nBit - 1 ≤ s.regs.n ∧ 23 ≤ s.regs.j ∧ 59 ≤ s.regs.k) →
      t.regs.phase = .send ∧ t.regs.hf = s.regs.hf ∧ t.regs.l = s.regs.l)

/-- No operation of the core and no reset changes a parameter (R8: "no operation of the core changes them"). -/
def Obligations.ParametersNeverChange : Prop := ∀ s t : State, step s = .next t → t.cfg = s.cfg

/-- R21, R22, R250: COLOR and COLOR_VALID change only by an accepted SETRGB or HSV2RGB, or by reset. -/
def Obligations.ColorWrittenOnlyByLoads : Prop :=
  ∀ s t : State, step s = .next t → (t.regs.color ≠ s.regs.color ∨ t.regs.colorValid ≠ s.regs.colorValid) →
    s.env.rst = true ∨
    (s.regs.phase = .idle ∧ ∃ w, cmdWord? s.env.offer = some w ∧
      ((∃ r g b, decode w = .ok (.setrgb r g b)) ∨ (∃ h sat val, decode w = .ok (.hsv2rgb h sat val))))

/-! ## The step -/

/-- In IDLE with `rst` = 0 and a word on the port that decodes, the step is exec of the instruction and then the host's
move; in SEND it is exec of the micro-operation that `be_bit` requests; in LATCH it is the gap's tick, whose last one completes
the frame, whatever `rst` will be later (R88, R125, R129, R132). The host's move changes the surroundings only, and `rst`
becomes what it is planned to be (log 6). A test bench's word that is accepted leaves the port, and the bench's next offer
takes its place (R31, R60, R137; its form is log 7). -/
def Obligations.StepRunsDecodedInstruction : Prop :=
  ∀ s : State, s.env.rst = false →
    (∀ w i, s.regs.phase = .idle → cmdWord? s.env.offer = some w → decode w = .ok i →
      step s = andThen (exec i s) (hostMove true)) ∧
    (s.regs.phase = .send →
      step s = andThen (exec (if framebit s.regs.color s.regs.j then .emit1 else .emit0) s) (hostMove false)) ∧
    (s.regs.phase = .latch →
      step s = .next (hostMove false
        (if s.regs.l < s.cfg.nReset - 1 then
          { s with
            obs := { s.obs with w := s.obs.w ++ [false] }
            regs := { s.regs with l := s.regs.l + 1 } }
         else
          { s with
            obs := { s.obs with w := s.obs.w ++ [false], frames := s.obs.frames ++ [List.replicate 60 s.regs.color] }
            regs := { s.regs with l := 0, phase := .idle }
            shown := .strip (List.replicate 60 s.regs.color) }))) ∧
    (∀ a t, (hostMove a t).cfg = t.cfg ∧ (hostMove a t).regs = t.regs ∧ (hostMove a t).obs = t.obs ∧
      (hostMove a t).shown = t.shown ∧ (hostMove a t).env.rst = t.env.rstPlan.headD false ∧
      (hostMove a t).env.rstPlan = t.env.rstPlan.tail) ∧
    (∀ w i agenda t, s.regs.phase = .idle → cmdWord? s.env.offer = some w → decode w = .ok i →
      s.env.driver = .bench agenda → step s = .next t →
      t.env.offer = agenda.headD .quiet ∧ t.env.driver = .bench agenda.tail)

/-- With no command and no frame going out, a tick only samples the wire low (R132); a test bench then makes its next offer. -/
def Obligations.IdleTickChangesNothing : Prop :=
  ∀ s : State, s.env.rst = false → s.regs.phase = .idle → cmdValid s.env.offer = false →
    ∃ t, step s = .next t ∧ t.cfg = s.cfg ∧ t.regs = s.regs ∧ t.shown = s.shown ∧
      t.obs = { s.obs with w := s.obs.w ++ [false] } ∧
      ∀ agenda, s.env.driver = .bench agenda → t.env.offer = agenda.headD .quiet ∧ t.env.driver = .bench agenda.tail

/-- R226, R220: a step is refused in IDLE with `rst` = 0 and a word offered that is reserved, else out of domain, else a
WRITE of an unwritten colour, with that reason, and nowhere else; it never faults. -/
def Obligations.RefusedExactlyWhereTheSpecRefuses : Prop :=
  ∀ s : State,
    (∀ r, step s = .refused r ↔
      s.env.rst = false ∧ s.regs.phase = .idle ∧ ∃ w, cmdWord? s.env.offer = some w ∧
        ((∃ e, decode w = .error e) ∧ r = .reservedCommand ∨
         (∃ h sat val, decode w = .ok (.hsv2rgb h sat val) ∧
            (360 ≤ h.toNat ∨ 101 ≤ sat.toNat ∨ 101 ≤ val.toNat)) ∧ r = .operandOutOfDomain ∨
         decode w = .ok .write ∧ s.regs.colorValid = false ∧ r = .colorUnwritten)) ∧
    ∀ f, step s ≠ .fault f

/-- R35, R132, R32: on every tick without reset `W` gains `dout`, which is 1 exactly if PHASE = SEND and `N < NH(b)` for the
bit `b` being sent; SIGMA gains that bit exactly on a slot's first tick; FRAMES gains NUM_LEDS copies of COLOR exactly on a
gap's last tick. On the tick of a SETRGB the clause on `W` is log 15. -/
def Obligations.TracesRecordEachTick : Prop :=
  ∀ s t : State, s.env.rst = false → step s = .next t →
    t.obs.w = s.obs.w ++ [dout s.cfg s.regs] ∧
    dout s.cfg s.regs = decide (s.regs.phase = .send ∧
      s.regs.n < if framebit s.regs.color s.regs.j then s.cfg.n1h else s.cfg.n0h) ∧
    t.obs.sigma = s.obs.sigma ++
      (if s.regs.phase = .send ∧ s.regs.n = 0 then [framebit s.regs.color s.regs.j] else []) ∧
    t.obs.frames = s.obs.frames ++
      (if s.regs.phase = .latch ∧ ¬ s.regs.l < s.cfg.nReset - 1 then [List.replicate 60 s.regs.color] else [])

/-- The output ports in every state (R28, R30, R31, R32): `busy` is 1 exactly outside IDLE, `cmd_ready` exactly in IDLE, `hf`
carries HF, which R38's invariants make 1 exactly in SEND, and `dout` is 1 exactly in SEND while `N < NH(b)` for the bit `b`
being sent; so `dout` is 0 in IDLE and LATCH. -/
def Obligations.OutputPortsFollowState : Prop :=
  ∀ (c : Config) (r : CoreRegs),
    (busy r = true ↔ r.phase = .send ∨ r.phase = .latch) ∧ (cmdReady r = true ↔ r.phase = .idle) ∧ hfOut r = r.hf ∧
    (RegsInv c r → (hfOut r = true ↔ r.phase = .send)) ∧
    (dout c r = true ↔ r.phase = .send ∧
      ((framebit r.color r.j = false ∧ r.n < c.n0h) ∨ (framebit r.color r.j = true ∧ r.n < c.n1h)))

/-- R35: the core never reads the traces, nor SHOWN: whatever they hold, the step answers the same. -/
def Obligations.TracesNeverRead : Prop :=
  ∀ (s : State) (o : Traces) (x : Shown),
    (∀ t, step s = .next t →
      ∃ u, step { s with obs := o, shown := x } = .next u ∧ u.cfg = t.cfg ∧ u.regs = t.regs ∧ u.env = t.env) ∧
    (∀ r, step s = .refused r → step { s with obs := o, shown := x } = .refused r)

/-- R131, R132, R256: while busy and without reset every tick has a next state, and what is on the command port makes no
difference to it; a test bench's held word stays offered, a word offered for one tick is lost. -/
def Obligations.BusyIgnoresCommandPort : Prop :=
  ∀ (s : State) (o : Offer), s.env.rst = false → s.regs.phase ≠ .idle →
    ∃ t u, step s = .next t ∧ step { s with env := { s.env with offer := o } } = .next u ∧
      u.cfg = t.cfg ∧ u.regs = t.regs ∧ u.obs = t.obs ∧ u.shown = t.shown ∧
      ∀ agenda, s.env.driver = .bench agenda →
        (∀ w, o = .hold w → u.env.offer = .hold w ∧ u.env.driver = .bench agenda) ∧
        (∀ w, o = .pulse w → u.env.offer = agenda.headD .quiet ∧ u.env.driver = .bench agenda.tail)

/-! ## Reset -/

/-- R250: on a tick with `rst` = 1, whatever the state and whatever is on the port, the core takes R37's values (nothing is
said of COLOR), the command offered is not accepted, and `dout` = 0, `hf` = 0, `busy` = 0, `cmd_ready` = 1 from then. That a
test bench's held word is still offered afterwards is the model's reading of "not accepted", logs 7 and 10. -/
def Obligations.ResetTickForcesIdle : Prop :=
  ∀ s : State, s.env.rst = true →
    ∃ t, step s = .next t ∧ t.regs.phase = .idle ∧ t.regs.k = 0 ∧ t.regs.j = 0 ∧ t.regs.n = 0 ∧ t.regs.l = 0 ∧
      t.regs.hf = false ∧ t.regs.colorValid = false ∧
      dout t.cfg t.regs = false ∧ hfOut t.regs = false ∧ busy t.regs = false ∧ cmdReady t.regs = true ∧
      ∀ agenda w, s.env.driver = .bench agenda → s.env.offer = .hold w →
        t.env.offer = .hold w ∧ t.env.driver = .bench agenda

/-- What a reset tick does beyond the core: the traces are emptied (R37, R250, log 11), SHOWN is "nothing yet" from IDLE and
unspecified when a WRITE was cut short (R37, R252, log 12), the host starts over (R37, log 10). These are the model's
reading, not R250's words. -/
def Obligations.ResetTickBeyondTheCore : Prop :=
  ∀ s : State, s.env.rst = true →
    ∃ t, step s = .next t ∧ t.obs.w = [] ∧ t.obs.sigma = [] ∧ t.obs.frames = [] ∧
      (s.regs.phase = .idle → t.shown = .nothingYet) ∧ (s.regs.phase ≠ .idle → t.shown = .unspecified) ∧
      t.env.lastHue = s.cfg.hueSentinel ∧ t.env.loopState = .idle

/-- R37's table at State.reset, but for COLOR, to which the spec gives no value (log 3). -/
def Obligations.ResetStateHoldsTheTable : Prop :=
  State.reset.regs.colorValid = false ∧ State.reset.regs.phase = .idle ∧ State.reset.regs.k = 0 ∧
  State.reset.regs.j = 0 ∧ State.reset.regs.n = 0 ∧ State.reset.regs.l = 0 ∧ State.reset.regs.hf = false ∧
  dout State.reset.cfg State.reset.regs = false ∧ cmdReady State.reset.regs = true ∧
  State.reset.obs.w = [] ∧ State.reset.obs.sigma = [] ∧ State.reset.obs.frames = [] ∧
  State.reset.shown = .nothingYet ∧ State.reset.env.lastHue = 511 ∧ State.reset.env.loopState = .idle

/-! ## Invariants -/

/-- R38's invariants are kept by every step from every state that has them, `W` grows by one each tick since reset, and
SIGMA's length is a multiple of 24 whenever PHASE is not SEND. -/
def Obligations.StepKeepsInvariant : Prop :=
  ∀ s t : State, Inv s → step s = .next t →
    Inv t ∧ t.obs.w.length = (if s.env.rst then 0 else s.obs.w.length + 1) ∧
      (t.regs.phase ≠ .send → t.obs.sigma.length % 24 = 0)

/-- R38's invariants hold after reset, with no tick counted yet. -/
def Obligations.ResetMeetsInvariant : Prop := Inv State.reset ∧ State.reset.obs.w.length = 0

/-! ## The BitstreamEncoder and the wire -/

/-- R101, R102, R110: from a slot's first tick, N_BIT ticks put the symbol of the bit being sent on the wire, high for NH(b)
ticks and low for the rest, SIGMA gains the bit, and the sequencer stands at the next slot, or at the gap with HF = 0. `rst`
need be 0 on those ticks only. -/
def Obligations.SlotTakesNBitTicks : Prop :=
  ∀ s : State, s.cfg.Valid → s.regs.phase = .send → s.regs.n = 0 → RstLowFor s.cfg.nBit s.env →
    ∃ t, runSteps s.cfg.nBit s = .next t ∧ t.cfg = s.cfg ∧
      t.obs.w = s.obs.w ++
        (if framebit s.regs.color s.regs.j then
          List.replicate s.cfg.n1h true ++ List.replicate (s.cfg.nBit - s.cfg.n1h) false
         else List.replicate s.cfg.n0h true ++ List.replicate (s.cfg.nBit - s.cfg.n0h) false) ∧
      t.obs.sigma = s.obs.sigma ++ [framebit s.regs.color s.regs.j] ∧ t.obs.frames = s.obs.frames ∧
      t.regs =
        (if s.regs.j < 23 then { s.regs with j := s.regs.j + 1 }
         else if s.regs.k < 59 then { s.regs with j := 0, k := s.regs.k + 1 }
         else { s.regs with j := 0, k := 0, l := 0, hf := false, phase := .latch })

/-- R112 with R78: the bits read back from the wire form of any list of bits are those bits. -/
def Obligations.WireReadsBackEveryBitList : Prop :=
  ∀ (c : Config) (bits : List Bit), c.Valid → readBits c (wireOf c bits) = some bits

/-- R75, R78: a whole frame's waveform, gap included, reads back as its bits and then the end of the frame. -/
def Obligations.FrameReadsBackWithItsEnd : Prop :=
  ∀ (c : Config) (color : Pixel), c.Valid → c.SlotBelowGap →
    readWire c (frameWave c color) = some ((framebits color).map WireToken.bit ++ [.endOfFrame])

/-- R76: inside the symbols of any list of bits no low run is longer than N0L ticks. -/
def Obligations.LowRunsInsideFrameAreShort : Prop :=
  ∀ (c : Config) (bits : List Bit), c.Valid →
    ∀ r ∈ runsOf (wireOf c bits), r.level = false → r.len ≤ c.nBit - c.n0h

/-! ## The PixelWriter -/

/-- R73, R124, R125: the bit at wire position `j` is bit `7 - (j mod 8)` of green, red or blue for `div(j, 8)` = 0, 1, 2. -/
def Obligations.WireOrderIsGreenRedBlueMsbFirst : Prop :=
  ∀ (p : Pixel) (j : Nat), j < 24 →
    framebit p j = (if j / 8 = 0 then p.g.getLsbD (7 - j % 8)
      else if j / 8 = 1 then p.r.getLsbD (7 - j % 8) else p.b.getLsbD (7 - j % 8)) ∧
    serialBit p j = framebit p j

/-- R138, R127, R123: a strip of `n` Pixels takes `24 * n` requests, request `24 * k + 8 * C + (7 - m)` carries bit `m` of
channel `C` of Pixel `k`, and that is the source's loop nest. -/
def Obligations.RequestsOfAnyStrip : Prop :=
  ∀ strip : List Pixel,
    (framebitsOf strip).length = 24 * strip.length ∧ framebitsOf strip = loopNest strip ∧
    ∀ (k : Nat) (p : Pixel) (m : Nat), strip[k]? = some p → m < 8 →
      (framebitsOf strip)[24 * k + (7 - m)]? = some (p.g.getLsbD m) ∧
      (framebitsOf strip)[24 * k + 8 + (7 - m)]? = some (p.r.getLsbD m) ∧
      (framebitsOf strip)[24 * k + 16 + (7 - m)]? = some (p.b.getLsbD m)

/-- R129, R130: from the gap's first tick the line is low and the core busy for exactly N_RESET ticks, HF stays as it was;
then the core is in IDLE, FRAMES has gained the frame and the strip shows it. `rst` need be 0 on those ticks only. -/
def Obligations.GapLastsNResetTicks : Prop :=
  ∀ s : State, s.cfg.Valid → s.regs.phase = .latch → s.regs.l = 0 → RstLowFor s.cfg.nReset s.env →
    (∀ k < s.cfg.nReset, ∃ t, runSteps k s = .next t ∧ t.regs = { s.regs with l := k } ∧
      t.obs = { s.obs with w := s.obs.w ++ List.replicate k false } ∧ t.shown = s.shown) ∧
    ∃ t, runSteps s.cfg.nReset s = .next t ∧ t.regs = { s.regs with l := 0, phase := .idle } ∧
      t.obs.w = s.obs.w ++ List.replicate s.cfg.nReset false ∧ t.obs.sigma = s.obs.sigma ∧
      t.obs.frames = s.obs.frames ++ [List.replicate 60 s.regs.color] ∧
      t.shown = .strip (List.replicate 60 s.regs.color)

/-- R133, R120: from IDLE with a colour loaded, the tick that accepts WRITE and `24 * NUM_LEDS * N_BIT + N_RESET` more with
`rst` = 0 reach IDLE with the core's registers as they were and W, SIGMA, FRAMES and SHOWN extended as R120's big step says,
after one leading 0 for the accepting tick. `rst` need be 0 on those ticks only. -/
def Obligations.WriteTicksAgreeWithBigStep : Prop :=
  ∀ s : State, s.cfg.Valid → RegsInv s.cfg s.regs → s.regs.phase = .idle → s.regs.colorValid = true →
    RstLowFor (1 + (24 * 60 * s.cfg.nBit + s.cfg.nReset)) s.env → cmdWord? s.env.offer = some 0x80000000#32 →
    ∃ t, runSteps (1 + (24 * 60 * s.cfg.nBit + s.cfg.nReset)) s = .next t ∧ t.cfg = s.cfg ∧ t.regs = s.regs ∧
      t.obs.w = s.obs.w ++ [false] ++ wireOf s.cfg (framebits s.regs.color) ++ List.replicate s.cfg.nReset false ∧
      t.obs.sigma = s.obs.sigma ++ framebits s.regs.color ∧
      t.obs.frames = s.obs.frames ++ [List.replicate 60 s.regs.color] ∧
      t.shown = .strip (List.replicate 60 s.regs.color)

/-! ## The ColorModel -/

/-- R160: `scale8` is 255 x / 100 rounded to the nearest integer, an exact half up; strictly increasing from 0 to 255. -/
def Obligations.ScaleRoundsHalfUp : Prop :=
  (∀ x, x ≤ 100 → 200 * scale8 x ≤ 510 * x + 100 ∧ 510 * x + 100 < 200 * (scale8 x + 1) ∧ scale8 x ≤ 255) ∧
  (∀ x y, x < y → y ≤ 100 → scale8 x < scale8 y) ∧
  scale8 0 = 0 ∧ scale8 10 = 26 ∧ scale8 30 = 77 ∧ scale8 50 = 128 ∧ scale8 70 = 179 ∧ scale8 90 = 230 ∧
  scale8 100 = 255

/-- R152: with `s` = 0 every channel is `scale8(v)`, whatever the hue. -/
def Obligations.AchromaticIgnoresHue : Prop :=
  ∀ h v, h < 360 → v ≤ 100 →
    (hsvToRgb h 0 v).r.toNat = scale8 v ∧ (hsvToRgb h 0 v).g.toNat = scale8 v ∧ (hsvToRgb h 0 v).b.toNat = scale8 v

/-- R171: putting `s` = 0 into the general formulas gives p = q = t = v and (v, v, v) in every sector. -/
def Obligations.ShortcutAgreesWithFormula : Prop :=
  ∀ h v, h < 360 → v ≤ 100 →
    pOf 0 v = v ∧ qOf 0 v (hueFraction (scaledHue h)) = v ∧ tOf 0 v (hueFraction (scaledHue h)) = v ∧
    chromaticRow h 0 v = (v, v, v)

/-- R166: with `s` > 0 the sector's pinned channel (red in 0 and 5, green in 1 and 2, blue in 3 and 4) is `scale8(v)`. -/
def Obligations.PinnedChannelCarriesValue : Prop :=
  ∀ h s v, h < 360 → 1 ≤ s → s ≤ 100 → v ≤ 100 →
    (sectorOf h = 0 ∨ sectorOf h = 5 → (hsvToRgb h s v).r.toNat = scale8 v) ∧
    (sectorOf h = 1 ∨ sectorOf h = 2 → (hsvToRgb h s v).g.toNat = scale8 v) ∧
    (sectorOf h = 3 ∨ sectorOf h = 4 → (hsvToRgb h s v).b.toNat = scale8 v)

/-- R167: p <= q <= v and p <= t <= v, so the pinned channel is the largest output and the channel carrying p (blue in
sectors 0 and 1, red in 2 and 3, green in 4 and 5) the smallest. -/
def Obligations.IntermediatesAreOrdered : Prop :=
  ∀ h s v, h < 360 → 1 ≤ s → s ≤ 100 → v ≤ 100 →
    let f := hueFraction (scaledHue h)
    let c := hsvToRgb h s v
    pOf s v ≤ qOf s v f ∧ qOf s v f ≤ v ∧ pOf s v ≤ tOf s v f ∧ tOf s v f ≤ v ∧
    c.r.toNat ≤ scale8 v ∧ c.g.toNat ≤ scale8 v ∧ c.b.toNat ≤ scale8 v ∧
    (sectorOf h = 0 ∨ sectorOf h = 1 → c.b.toNat = scale8 (pOf s v) ∧ c.b.toNat ≤ c.r.toNat ∧ c.b.toNat ≤ c.g.toNat) ∧
    (sectorOf h = 2 ∨ sectorOf h = 3 → c.r.toNat = scale8 (pOf s v) ∧ c.r.toNat ≤ c.g.toNat ∧ c.r.toNat ≤ c.b.toNat) ∧
    (sectorOf h = 4 ∨ sectorOf h = 5 → c.g.toNat = scale8 (pOf s v) ∧ c.g.toNat ≤ c.r.toNat ∧ c.g.toNat ≤ c.b.toNat)

/-- R150 to R160 written out in numbers, with no definition of the model but the result: what each channel is in the achromatic
case and in each sector's range of hues, with p, q and t where R159's table puts them. -/
def Obligations.ConversionWrittenOut : Prop :=
  ∀ h s v, h < 360 → s ≤ 100 → v ≤ 100 →
    let f := h * 10 / 6 - h * 10 / 6 / 100 * 100
    let p := v * (100 - s) / 100
    let q := v * (1000 - s * f / 10) / 1000
    let t := v * (1000 - s * (100 - f) / 10) / 1000
    let c := hsvToRgb h s v
    let shows := fun red green blue : Nat =>
      c.r.toNat = (255 * red + 50) / 100 ∧ c.g.toNat = (255 * green + 50) / 100 ∧ c.b.toNat = (255 * blue + 50) / 100
    (s = 0 → shows v v v) ∧
    (s ≠ 0 → h < 60 → shows v t p) ∧
    (s ≠ 0 → 60 ≤ h → h < 120 → shows q v p) ∧
    (s ≠ 0 → 120 ≤ h → h < 180 → shows p v t) ∧
    (s ≠ 0 → 180 ≤ h → h < 240 → shows p q v) ∧
    (s ≠ 0 → 240 ≤ h → h < 300 → shows t p v) ∧
    (s ≠ 0 → 300 ≤ h → shows v p q)

/-- R163's table of bounds, every row: the chromatic branch's quantities, and the scaling's for every percent `x`; and every
one of them fits INT_W signed bits (R162). -/
def Obligations.IntermediatesStayInBounds : Prop :=
  ∀ h s v, h < 360 → 1 ≤ s → s ≤ 100 → v ≤ 100 →
    let sh := scaledHue h
    let f := hueFraction sh
    h * 10 ≤ 3590 ∧ sh ≤ 598 ∧ sectorBase sh ≤ 500 ∧ f ≤ 98 ∧ s * f ≤ 9800 ∧ s * f / 10 ≤ 980 ∧
    2 ≤ 100 - f ∧ 100 - f ≤ 100 ∧ 2 ≤ s * (100 - f) ∧ s * (100 - f) ≤ 10000 ∧ s * (100 - f) / 10 ≤ 1000 ∧
    20 ≤ 1000 - s * f / 10 ∧ 1000 - s * f / 10 ≤ 1000 ∧ 1000 - s * (100 - f) / 10 ≤ 1000 ∧
    v * (100 - s) ≤ 9900 ∧ v * (1000 - s * f / 10) ≤ 100000 ∧ v * (1000 - s * (100 - f) / 10) ≤ 100000 ∧
    pOf s v ≤ 99 ∧ qOf s v f ≤ 100 ∧ tOf s v f ≤ 100 ∧
    (∀ x, x ≤ 100 → 50 ≤ 255 * x + 50 ∧ 255 * x + 50 ≤ 25550 ∧ scale8 x ≤ 255) ∧
    ∀ c : Config, c.Valid →
      (∀ y ∈ [h * 10, sh, sectorBase sh, f, s * f, s * f / 10, 100 - f, s * (100 - f), s * (100 - f) / 10,
          1000 - s * f / 10, 1000 - s * (100 - f) / 10, v * (100 - s), v * (1000 - s * f / 10),
          v * (1000 - s * (100 - f) / 10), pOf s v, qOf s v f, tOf s v f], y < 2 ^ (c.intW - 1)) ∧
      ∀ x, x ≤ 100 → 255 * x + 50 < 2 ^ (c.intW - 1) ∧ scale8 x < 2 ^ (c.intW - 1)

/-- R164, R170, R159: the sector of hue `h` is `div(h, 60)`; a boundary hue `60 * n` starts sector `n` with fraction 0; the
last hue of a sector has fraction 98. -/
def Obligations.SectorIsSixtyDegrees : Prop :=
  (∀ h, h < 360 → sectorOf h = h / 60 ∧ sectorOf h ≤ 5) ∧
  ∀ n, n < 6 → scaledHue (60 * n) = 100 * n ∧ sectorOf (60 * n) = n ∧ hueFraction (scaledHue (60 * n)) = 0 ∧
    sectorOf (60 * n + 59) = n ∧ hueFraction (scaledHue (60 * n + 59)) = 98

/-- R169: with `v` = 0 the result is black for every hue and saturation. -/
def Obligations.ZeroValueIsBlack : Prop :=
  ∀ h s, h < 360 → s ≤ 100 → hsvToRgb h s 0 = { r := 0, g := 0, b := 0 }

/-- R174: `scale8` takes 101 values on 0..100 and omits 1, 2, 4, 6, 7 and 9, so no channel CM makes is any of them. -/
def Obligations.NoConversionGivesChannelFour : Prop :=
  (∀ x y, x ≤ 100 → y ≤ 100 → scale8 x = scale8 y → x = y) ∧
  ∀ h s v, h < 360 → s ≤ 100 → v ≤ 100 → ∀ c ∈ [1, 2, 4, 6, 7, 9],
    (hsvToRgb h s v).r.toNat ≠ c ∧ (hsvToRgb h s v).g.toNat ≠ c ∧ (hsvToRgb h s v).b.toNat ≠ c

/-! ## The host -/

/-- R192, R194, R193, R206: the average is the sum divided by ten, remainder discarded; ten conversions sum to at most 10230, their average maps to 120..365, 360 or more becomes 0, which
happens exactly from raw 1000 up, so SAMPLE_HUE returns 0 or 120..359. -/
def Obligations.SampledHueIsAHue : Prop :=
  ∀ conversions : List (BitVec 10), conversions.length = 10 →
    let raw := averageRaw conversions
    raw = (conversions.map BitVec.toNat).sum / 10 ∧ (conversions.map BitVec.toNat).sum ≤ 10230 ∧ raw ≤ 1023 ∧ raw * 6 ≤ 6138 ∧ 120 ≤ mapHue raw ∧ mapHue raw ≤ 365 ∧
    (sampleHue conversions = 0 ∨ 120 ≤ sampleHue conversions ∧ sampleHue conversions ≤ 359) ∧
    (sampleHue conversions = 0 ↔ 1000 ≤ raw) ∧ (raw < 1000 → sampleHue conversions = raw * 6 / 25 + 120)

/-- R195, R197: iteration number `k` issues HSV2RGB hue, 100, 20 and then WRITE if its hue differs from the hue before it
(LAST_HUE for the first), and nothing otherwise. -/
def Obligations.LoopRendersExactlyOnChange : Prop :=
  ∀ (last : Nat) (hues : List Nat) (k hue : Nat), hues[k]? = some hue →
    (loopRun last hues)[k]? = some
      (if hue = (if k = 0 then last else hues.getD (k - 1) 0) then []
       else [.hsv2rgb (BitVec.ofNat 9 hue) 100 20, .write])

/-- R191, R199, R200, R207: in Idle the loop offers nothing and keeps LAST_HUE; with the ADC it stays Idle while more than one
tick of the boot wait is left and leaves for Sampling on the next tick otherwise, the inter-sample delay being nothing; with a
fake sensor it leaves at once, if a hue is left. The boot wait's form is log 25, the fake sensor's log 24. -/
def Obligations.IdleWaitsThenSamples : Prop :=
  ∀ s : State, LoopInv s → s.env.rst = false → s.env.loopState = .idle →
    ∃ t, step s = .next t ∧ t.regs = s.regs ∧ t.env.offer = .quiet ∧ t.env.lastHue = s.env.lastHue ∧
      t.env.bootLeft = s.env.bootLeft - 1 ∧
      (s.env.driver = .sensorLoop .adc → 1 < s.env.bootLeft → t.env.loopState = .idle) ∧
      (s.env.driver = .sensorLoop .adc → s.env.bootLeft ≤ 1 → t.env.loopState = .sampling (.convert [])) ∧
      ∀ hues, s.env.driver = .sensorLoop (.fake hues) →
        t.env.loopState = if hues = [] then .idle else .sampling (.convert [])

/-- R191, R199, R200: "Transition Idle→Sampling happens unconditionally after the fixed delay": with the ADC at the port and
`rst` = 0, Idle lasts the ticks left of the boot wait, one tick where none is left, and then the loop is at Sampling's start,
the core and LAST_HUE as they were. Only the poll of the ADC can hang (R202). The boot wait's form is log 25. -/
def Obligations.IdleEndsWithTheBootWait : Prop :=
  ∀ s : State, LoopInv s → s.env.driver = .sensorLoop .adc → s.env.loopState = .idle →
    RstLowFor (max 1 s.env.bootLeft) s.env →
    ∃ t, runSteps (max 1 s.env.bootLeft) s = .next t ∧ t.env.loopState = .sampling (.convert []) ∧ t.regs = s.regs ∧
      t.env.lastHue = s.env.lastHue ∧ t.env.offer = .quiet ∧ t.env.driver = .sensorLoop .adc

/-- R192, R195, R197 in the step: Sampling gathers conversions one at a time; when the tenth has come the hue is compared with
LAST_HUE: a changed hue is rendered, the conversion `HSV2RGB hue, 100, 20` offered first and LAST_HUE kept until the render
is over; an unchanged one is not, nothing is offered and the loop is Idle. A fake sensor's next hue is compared likewise. The
stages are log 8, the conversions and the poll free values (log 9), the fake sensor log 24. -/
def Obligations.StepRendersExactlyOnChange : Prop :=
  ∀ (s : State) (got : List (BitVec 10)), LoopInv s → s.env.rst = false → s.env.loopState = .sampling (.convert got) →
    ∃ t, step s = .next t ∧ t.regs = s.regs ∧
      (s.env.driver = .sensorLoop .adc →
        let now := got ++ [Config.adcResult s.env.draws]
        (Config.adcBusy s.env.draws = true →
          t.env.loopState = .sampling (.convert got) ∧ t.env.offer = .quiet ∧ t.env.lastHue = s.env.lastHue) ∧
        (Config.adcBusy s.env.draws = false → now.length < 10 →
          t.env.loopState = .sampling (.convert now) ∧ t.env.offer = .quiet ∧ t.env.lastHue = s.env.lastHue) ∧
        (Config.adcBusy s.env.draws = false → 10 ≤ now.length → RendersOnChange s t (sampleHue now))) ∧
      ∀ hue rest, s.env.driver = .sensorLoop (.fake (hue :: rest)) →
        RendersOnChange s t hue ∧ t.env.driver = .sensorLoop (.fake rest)

/-- R197: LAST_HUE is written at the end of an iteration, which leaves the loop Idle, or by reset, and by nothing else. -/
def Obligations.LastHueWrittenOnlyByIterations : Prop :=
  ∀ s t : State, step s = .next t → t.env.lastHue ≠ s.env.lastHue →
    s.env.rst = true ∨
    ((∃ sensor, s.env.driver = .sensorLoop sensor) ∧ s.env.loopState ≠ .idle ∧ t.env.loopState = .idle)

/-- R195, R190: the SensorLoop's render step by step. The conversion, once offered, is accepted at once and leaves COLOR the
colour of the hue and WRITE offered; WRITE is accepted at once and starts the frame; when `busy` has fallen LAST_HUE is the
hue and the loop Idle. -/
def Obligations.RenderRunsConversionThenWrite : Prop :=
  ∀ (s : State) (hue : Nat), LoopInv s → s.env.rst = false →
    (s.env.loopState = .sampling (.issueColor hue) →
      ∃ t, step s = .next t ∧ t.regs.color = hsvToRgb hue 100 20 ∧ t.regs.colorValid = true ∧
        t.env.offer = .hold 0x80000000#32 ∧ t.env.loopState = .sampling (.issueWrite hue) ∧
        t.env.lastHue = s.env.lastHue) ∧
    (s.env.loopState = .sampling (.issueWrite hue) →
      ∃ t, step s = .next t ∧ t.regs.phase = .send ∧ t.regs.color = s.regs.color ∧ t.env.offer = .quiet ∧
        t.env.loopState = .sampling (.awaitWrite hue) ∧ t.env.lastHue = s.env.lastHue) ∧
    (s.env.loopState = .sampling (.awaitWrite hue) →
      ∃ t, step s = .next t ∧
        (t.regs.phase = .idle → t.env.lastHue = hue ∧ t.env.loopState = .idle ∧ t.env.offer = .quiet) ∧
        (t.regs.phase ≠ .idle → t.env.loopState = .sampling (.awaitWrite hue) ∧ t.env.lastHue = s.env.lastHue))

/-- R168, R198, R205, R255: with the SensorLoop at the port the core is never refused: from every state that meets the
invariants, whatever the sensor, the delays and `rst` do, the step has a next state and it meets them again. -/
def Obligations.SensorLoopIsNeverRefused : Prop :=
  ∀ s : State, Inv s → LoopInv s → ∃ t, step s = .next t ∧ Inv t ∧ LoopInv t

/-- The reset state is one such: the SensorLoop, Idle, offering nothing (R37; that it drives the port is log 8). -/
def Obligations.ResetMeetsLoopDiscipline : Prop := LoopInv State.reset

/-- R200, R254: with the SensorLoop and its ADC at the port, from every state that meets the invariants, a step keeps the boot
wait's invariant, and whenever a frame or its gap is going out the line was low for N_RESET ticks before its first high level
since reset. That valid parameters have a boot wait of N_RESET ticks or more is R200's "covers", read in ticks, log 25. -/
def Obligations.BootWaitCoversFirstGap : Prop :=
  ∀ s t : State, Inv s → LoopInv s → BootInv s → step s = .next t →
    BootInv t ∧ (t.regs.phase ≠ .idle → t.cfg.nReset ≤ (t.obs.w.takeWhile fun level => level = false).length)

/-- R200: the boot wait starts at reset, at State.reset and after every tick with `rst` = 1 (logs 10, 25): its ticks are all
left, and with valid parameters they cover the first gap. -/
def Obligations.ResetStartsBootWait : Prop :=
  BootInv State.reset ∧ State.reset.env.bootLeft = State.reset.cfg.bootTicks ∧
  ∀ s t : State, s.env.rst = true → step s = .next t →
    t.env.bootLeft = s.cfg.bootTicks ∧ (s.cfg.Valid → s.env.driver = .sensorLoop .adc → BootInv t)
end

