-- ==== Sys2Proof/Laws/State.lean ====
section
/-! SUPPORT. What each update of the state leaves and sets, one lemma per part, so that no proof unfolds an update. -/

namespace Sys2Proof.Machine

@[simp] theorem sampleWire_w (x : Level) (t : Traces) : (sampleWire x t).w = t.w ++ [x] := rfl
@[simp] theorem sampleWire_sigma (x : Level) (t : Traces) : (sampleWire x t).sigma = t.sigma := rfl
@[simp] theorem sampleWire_frames (x : Level) (t : Traces) : (sampleWire x t).frames = t.frames := rfl

@[simp] theorem idleTick_cfg (s : State) : (idleTick s).cfg = s.cfg := rfl
@[simp] theorem idleTick_regs (s : State) : (idleTick s).regs = s.regs := rfl
@[simp] theorem idleTick_obs (s : State) : (idleTick s).obs = sampleWire false s.obs := rfl
@[simp] theorem idleTick_shown (s : State) : (idleTick s).shown = s.shown := rfl
@[simp] theorem idleTick_env (s : State) : (idleTick s).env = s.env := rfl

@[simp] theorem slotTick_cfg (b : Bit) (s : State) : (slotTick b s).cfg = s.cfg := rfl
@[simp] theorem slotTick_regs (b : Bit) (s : State) : (slotTick b s).regs = advance s.cfg s.regs := rfl
@[simp] theorem slotTick_w (b : Bit) (s : State) :
    (slotTick b s).obs.w = s.obs.w ++ [slotLevel s.cfg b s.regs.n] := rfl
@[simp] theorem slotTick_sigma (b : Bit) (s : State) :
    (slotTick b s).obs.sigma = if s.regs.n = 0 then s.obs.sigma ++ [b] else s.obs.sigma := rfl
@[simp] theorem slotTick_frames (b : Bit) (s : State) : (slotTick b s).obs.frames = s.obs.frames := rfl
@[simp] theorem slotTick_shown (b : Bit) (s : State) : (slotTick b s).shown = s.shown := rfl
@[simp] theorem slotTick_env (b : Bit) (s : State) : (slotTick b s).env = s.env := rfl

@[simp] theorem loadColor_cfg (p : Pixel) (s : State) : (loadColor p s).cfg = s.cfg := rfl
@[simp] theorem loadColor_regs (p : Pixel) (s : State) :
    (loadColor p s).regs = { s.regs with color := p, colorValid := true } := rfl
@[simp] theorem loadColor_obs (p : Pixel) (s : State) : (loadColor p s).obs = sampleWire false s.obs := rfl
@[simp] theorem loadColor_shown (p : Pixel) (s : State) : (loadColor p s).shown = s.shown := rfl
@[simp] theorem loadColor_env (p : Pixel) (s : State) : (loadColor p s).env = s.env := rfl

@[simp] theorem startFrame_cfg (s : State) : (startFrame s).cfg = s.cfg := rfl
@[simp] theorem startFrame_regs (s : State) :
    (startFrame s).regs = { s.regs with phase := .send, k := 0, j := 0, n := 0, hf := true } := rfl
@[simp] theorem startFrame_obs (s : State) : (startFrame s).obs = sampleWire false s.obs := rfl
@[simp] theorem startFrame_shown (s : State) : (startFrame s).shown = s.shown := rfl
@[simp] theorem startFrame_env (s : State) : (startFrame s).env = s.env := rfl

@[simp] theorem hostMove_cfg (a : Bool) (s : State) : (hostMove a s).cfg = s.cfg := rfl
@[simp] theorem hostMove_regs (a : Bool) (s : State) : (hostMove a s).regs = s.regs := rfl
@[simp] theorem hostMove_obs (a : Bool) (s : State) : (hostMove a s).obs = s.obs := rfl
@[simp] theorem hostMove_shown (a : Bool) (s : State) : (hostMove a s).shown = s.shown := rfl
@[simp] theorem hostMove_env (a : Bool) (s : State) : (hostMove a s).env = hostEnv a (cmdReady s.regs) s.env := rfl

@[simp] theorem resetTick_cfg (s : State) : (resetTick s).cfg = s.cfg := rfl
@[simp] theorem resetTick_regs (s : State) :
    (resetTick s).regs = { CoreRegs.reset with color := Config.colorAfterReset s.env.draws } := rfl
@[simp] theorem resetTick_obs (s : State) : (resetTick s).obs = Traces.empty := rfl
@[simp] theorem resetTick_shown (s : State) : (resetTick s).shown = shownAfterReset s.regs := rfl
@[simp] theorem resetTick_env (s : State) : (resetTick s).env = resetEnv s.cfg s.env := rfl

@[simp] theorem nextInputs_rst (e : Env) : (nextInputs e).rst = e.rstPlan.headD false := rfl
@[simp] theorem nextInputs_rstPlan (e : Env) : (nextInputs e).rstPlan = e.rstPlan.tail := rfl
@[simp] theorem nextInputs_offer (e : Env) : (nextInputs e).offer = e.offer := rfl
@[simp] theorem nextInputs_driver (e : Env) : (nextInputs e).driver = e.driver := rfl
@[simp] theorem nextInputs_lastHue (e : Env) : (nextInputs e).lastHue = e.lastHue := rfl
@[simp] theorem nextInputs_loopState (e : Env) : (nextInputs e).loopState = e.loopState := rfl
@[simp] theorem nextInputs_bootLeft (e : Env) : (nextInputs e).bootLeft = e.bootLeft - 1 := rfl
@[simp] theorem nextInputs_draws (e : Env) : (nextInputs e).draws = e.draws + 1 := rfl

@[simp] theorem finishIteration_rst (hue : Nat) (e : Env) : (finishIteration hue e).rst = e.rst := rfl
@[simp] theorem finishIteration_rstPlan (hue : Nat) (e : Env) : (finishIteration hue e).rstPlan = e.rstPlan := rfl
@[simp] theorem finishIteration_offer (hue : Nat) (e : Env) : (finishIteration hue e).offer = .quiet := rfl
@[simp] theorem finishIteration_driver (hue : Nat) (e : Env) : (finishIteration hue e).driver = e.driver := rfl
@[simp] theorem finishIteration_lastHue (hue : Nat) (e : Env) : (finishIteration hue e).lastHue = hue := rfl
@[simp] theorem finishIteration_bootLeft (hue : Nat) (e : Env) : (finishIteration hue e).bootLeft = e.bootLeft := rfl
@[simp] theorem finishIteration_draws (hue : Nat) (e : Env) : (finishIteration hue e).draws = e.draws := rfl
@[simp] theorem finishIteration_loopState (hue : Nat) (e : Env) : (finishIteration hue e).loopState = .idle := rfl

@[simp] theorem emitSlot_cfg (b : Bit) (s : State) : (emitSlot b s).cfg = s.cfg := rfl
@[simp] theorem emitSlot_regs (b : Bit) (s : State) :
    (emitSlot b s).regs = advance s.cfg { s.regs with n := s.cfg.nBit - 1 } := rfl
@[simp] theorem emitSlot_w (b : Bit) (s : State) : (emitSlot b s).obs.w = s.obs.w ++ sym s.cfg b := rfl
@[simp] theorem emitSlot_sigma (b : Bit) (s : State) : (emitSlot b s).obs.sigma = s.obs.sigma ++ [b] := rfl
@[simp] theorem emitSlot_frames (b : Bit) (s : State) : (emitSlot b s).obs.frames = s.obs.frames := rfl
@[simp] theorem emitSlot_shown (b : Bit) (s : State) : (emitSlot b s).shown = s.shown := rfl
@[simp] theorem emitSlot_env (b : Bit) (s : State) : (emitSlot b s).env = s.env := rfl

@[simp] theorem writeWhole_cfg (s : State) : (writeWhole s).cfg = s.cfg := rfl
@[simp] theorem writeWhole_regs (s : State) :
    (writeWhole s).regs = { s.regs with phase := .idle, k := 0, j := 0, n := 0, l := 0, hf := false } := rfl
@[simp] theorem writeWhole_shown (s : State) : (writeWhole s).shown = .strip (stripOf s.regs.color) := rfl
@[simp] theorem writeWhole_env (s : State) : (writeWhole s).env = s.env := rfl

end Sys2Proof.Machine
end

