-- ==== Sys2Proof/Laws/Ops.lean ====
section
/-! SUPPORT. Each shared operation's lemma, saying once everything it can do: the advance, accepting a command, the meanings,
fetching, the step, the host's move. -/

namespace Sys2Proof.Machine

variable {s t : State} {r : CoreRegs} {e : Env}

theorem busy_eq_false : busy r = false ↔ r.phase = .idle := by simp [busy]

theorem busy_eq_true : busy r = true ↔ r.phase ≠ .idle := by simp [busy]

/-- R151's operand domain. -/
theorem hsvInDomain_iff {h : BitVec 9} {sat val : BitVec 7} :
    hsvInDomain h sat val = true ↔ h.toNat < 360 ∧ sat.toNat ≤ 100 ∧ val.toNat ≤ 100 := by
  rw [hsvInDomain, Bool.and_eq_true, Bool.and_eq_true, decide_eq_true_iff, decide_eq_true_iff, decide_eq_true_iff]
  unfold hMax pctMax
  omega

theorem hsvInDomain_eq_false {h : BitVec 9} {sat val : BitVec 7} :
    hsvInDomain h sat val = false ↔ 360 ≤ h.toNat ∨ 101 ≤ sat.toNat ∨ 101 ≤ val.toNat := by
  rw [← Bool.not_eq_true, hsvInDomain_iff]
  omega

/-- The level R32 gives is what each phase's tick samples. -/
theorem dout_idle (c : Config) (h : r.phase = .idle) : dout c r = false := by simp [dout, h]

theorem dout_latch (c : Config) (h : r.phase = .latch) : dout c r = false := by simp [dout, h]

theorem dout_send (c : Config) (h : r.phase = .send) : dout c r = slotLevel c (beBit r) r.n := by
  simp [dout, h, beBit]

/-- The four ways the sequencer leaves a tick of SEND (R132). -/
theorem advance_cases (c : Config) (r : CoreRegs) :
    (r.n < c.nBit - 1 ∧ advance c r = { r with n := r.n + 1 }) ∨
    (¬ r.n < c.nBit - 1 ∧ r.j < 23 ∧ advance c r = { r with n := 0, j := r.j + 1 }) ∨
    (¬ r.n < c.nBit - 1 ∧ ¬ r.j < 23 ∧ r.k < 59 ∧ advance c r = { r with n := 0, j := 0, k := r.k + 1 }) ∨
    (¬ r.n < c.nBit - 1 ∧ ¬ r.j < 23 ∧ ¬ r.k < 59 ∧
      advance c r = { r with n := 0, j := 0, k := 0, hf := false, phase := .latch, l := 0 }) := by
  have hb : bitsPerPixel - 1 = 23 := by decide
  have hl : numLeds - 1 = 59 := by decide
  unfold advance
  rw [hb, hl]
  by_cases h1 : r.n < c.nBit - 1
  · simp [h1]
  · by_cases h2 : r.j < 23
    · simp [h1, h2]
    · by_cases h3 : r.k < 59 <;> simp [h1, h2, h3]

/-- The sequencer's advance never touches COLOR or COLOR_VALID. -/
@[simp] theorem advance_color (c : Config) (r : CoreRegs) : (advance c r).color = r.color := by
  rcases advance_cases c r with ⟨_, h⟩ | ⟨_, _, h⟩ | ⟨_, _, _, h⟩ | ⟨_, _, _, h⟩ <;> rw [h]

@[simp] theorem advance_colorValid (c : Config) (r : CoreRegs) : (advance c r).colorValid = r.colorValid := by
  rcases advance_cases c r with ⟨_, h⟩ | ⟨_, _, h⟩ | ⟨_, _, _, h⟩ | ⟨_, _, _, h⟩ <;> rw [h]

/-- The two ways a tick of the gap ends (R129, R132). -/
theorem latchTick_cases (s : State) :
    (s.regs.l < s.cfg.nReset - 1 ∧
      latchTick s = { s with obs := sampleWire false s.obs, regs := { s.regs with l := s.regs.l + 1 } }) ∨
    (¬ s.regs.l < s.cfg.nReset - 1 ∧
      latchTick s = { s with
        obs := { sampleWire false s.obs with frames := s.obs.frames ++ [stripOf s.regs.color] }
        regs := { s.regs with l := 0, phase := .idle }
        shown := .strip (stripOf s.regs.color) }) := by
  by_cases h : s.regs.l < s.cfg.nReset - 1 <;> simp [latchTick, h]

@[simp] theorem latchTick_cfg (s : State) : (latchTick s).cfg = s.cfg := by
  rcases latchTick_cases s with ⟨_, h⟩ | ⟨_, h⟩ <;> rw [h]

@[simp] theorem latchTick_env (s : State) : (latchTick s).env = s.env := by
  rcases latchTick_cases s with ⟨_, h⟩ | ⟨_, h⟩ <;> rw [h]

@[simp] theorem latchTick_w (s : State) : (latchTick s).obs.w = s.obs.w ++ [false] := by
  rcases latchTick_cases s with ⟨_, h⟩ | ⟨_, h⟩ <;> rw [h] <;> rfl

@[simp] theorem latchTick_sigma (s : State) : (latchTick s).obs.sigma = s.obs.sigma := by
  rcases latchTick_cases s with ⟨_, h⟩ | ⟨_, h⟩ <;> rw [h] <;> rfl

@[simp] theorem latchTick_color (s : State) : (latchTick s).regs.color = s.regs.color := by
  rcases latchTick_cases s with ⟨_, h⟩ | ⟨_, h⟩ <;> rw [h]

@[simp] theorem latchTick_colorValid (s : State) : (latchTick s).regs.colorValid = s.regs.colorValid := by
  rcases latchTick_cases s with ⟨_, h⟩ | ⟨_, h⟩ <;> rw [h]

theorem sequencerTick_idle (h : s.regs.phase = .idle) : sequencerTick s = idleTick s := by simp [sequencerTick, h]

theorem sequencerTick_send (h : s.regs.phase = .send) : sequencerTick s = slotTick (beBit s.regs) s := by
  simp [sequencerTick, h]

theorem sequencerTick_latch (h : s.regs.phase = .latch) : sequencerTick s = latchTick s := by simp [sequencerTick, h]

/-- A command's tick: taken in IDLE, ignored while busy (R30, R132). -/
theorem acceptCommand_idle (h : s.regs.phase = .idle) (f : State → Out) : acceptCommand s f = f s := by
  simp [acceptCommand, busy, h]

theorem acceptCommand_busy (h : s.regs.phase ≠ .idle) (f : State → Out) :
    acceptCommand s f = .next (sequencerTick s) := by
  simp [acceptCommand, busy, h]

/-- Everything SETRGB can do in IDLE (R121). -/
theorem execSetrgb_idle (h : s.regs.phase = .idle) (r g b : BitVec 8) :
    execSetrgb r g b s = .next (loadColor { r := r, g := g, b := b } s) := acceptCommand_idle h _

/-- Everything HSV2RGB can do in IDLE (R150, R168). -/
theorem execHsv2rgb_idle (h : s.regs.phase = .idle) (hue : BitVec 9) (sat val : BitVec 7) :
    execHsv2rgb hue sat val s =
      if hsvInDomain hue sat val then .next (loadColor (hsvToRgb hue.toNat sat.toNat val.toNat) s)
      else .refused .operandOutOfDomain := acceptCommand_idle h _

/-- Everything WRITE can do in IDLE (R120, R136). -/
theorem execWrite_idle (h : s.regs.phase = .idle) :
    execWrite s = if s.regs.colorValid then .next (startFrame s) else .refused .colorUnwritten :=
  acceptCommand_idle h _

theorem emitTick_send (h : s.regs.phase = .send) (b : Bit) : emitTick b s = .next (slotTick b s) := by
  simp [emitTick, h]

theorem emitTick_next {b : Bit} (h : emitTick b s = .next t) : s.regs.phase = .send ∧ t = slotTick b s := by
  cases hp : s.regs.phase <;> simp [emitTick, hp] at h
  exact ⟨rfl, h.symm⟩

@[simp] theorem andThen_next (s : State) (f : State → State) : andThen (.next s) f = .next (f s) := rfl
@[simp] theorem andThen_refused (r : Refusal) (f : State → State) : andThen (.refused r) f = .refused r := rfl
@[simp] theorem andThen_fault (r : Fault) (f : State → State) : andThen (.fault r) f = .fault r := rfl

theorem andThen_eq_next {o : Out} {f : State → State} :
    andThen o f = .next t ↔ ∃ u, o = .next u ∧ t = f u := by
  cases o <;> simp [andThen, eq_comm]

/-- What a command in IDLE answers, and nothing else (R86, R121, R136, R150, R168). -/
theorem exec_command_idle (h : s.regs.phase = .idle) {i : Instr} (hi : i.isCommand = true) (he : exec i s = .next t) :
    (∃ r g b, i = .setrgb r g b ∧ t = loadColor { r := r, g := g, b := b } s) ∨
    (∃ hue sat val, i = .hsv2rgb hue sat val ∧ hsvInDomain hue sat val = true ∧
      t = loadColor (hsvToRgb hue.toNat sat.toNat val.toNat) s) ∨
    (i = .write ∧ s.regs.colorValid = true ∧ t = startFrame s) := by
  cases i with
  | setrgb r g b =>
    rw [exec, execSetrgb_idle h] at he
    exact .inl ⟨r, g, b, rfl, by simpa using he.symm⟩
  | hsv2rgb hue sat val =>
    rw [exec, execHsv2rgb_idle h] at he
    split at he
    · exact .inr (.inl ⟨hue, sat, val, rfl, ‹_›, by simpa using he.symm⟩)
    · cases he
  | write =>
    rw [exec, execWrite_idle h] at he
    split at he
    · exact .inr (.inr ⟨rfl, ‹_›, by simpa using he.symm⟩)
    · cases he
  | emit0 => cases hi
  | emit1 => cases hi

/-- A command offered while busy: the sequencer's own tick (R132). -/
theorem exec_command_busy (h : s.regs.phase ≠ .idle) {i : Instr} (hi : i.isCommand = true) :
    exec i s = .next (sequencerTick s) := by
  cases i with
  | setrgb r g b => simp only [exec, execSetrgb, acceptCommand_busy h]
  | hsv2rgb hue sat val => simp only [exec, execHsv2rgb, acceptCommand_busy h]
  | write => simp only [exec, execWrite, acceptCommand_busy h]
  | emit0 => cases hi
  | emit1 => cases hi

/-- The decoder gives host commands only (R86, R88). -/
theorem decode_isCommand {w : Word} {i : Instr} (h : decode w = .ok i) : i.isCommand = true := by
  unfold decode at h
  split at h
  · cases h; rfl
  split at h
  · cases h; rfl
  split at h
  · cases h; rfl
  split at h <;> cases h

theorem exec_decodeRequest (b : Bit) (s : State) : exec (decodeRequest b) s = emitTick b s := by
  cases b <;> rfl

/-- What a tick finds, case by case (R132). -/
theorem fetch_reset (h : s.env.rst = true) : fetch s = .reset := by simp [fetch, h]

theorem fetch_idle (hr : s.env.rst = false) (hp : s.regs.phase = .idle) : fetch s = fetchCommand s.env.offer := by
  simp [fetch, hr, hp]

theorem fetch_send (hr : s.env.rst = false) (hp : s.regs.phase = .send) :
    fetch s = .run (decodeRequest (beBit s.regs)) false := by
  simp [fetch, hr, hp]

theorem fetch_latch (hr : s.env.rst = false) (hp : s.regs.phase = .latch) : fetch s = .quiet := by
  simp [fetch, hr, hp]

theorem fetchCommand_quiet {o : Offer} (h : cmdWord? o = none) : fetchCommand o = .quiet := by simp [fetchCommand, h]

theorem fetchCommand_run {o : Offer} {w : Word} {i : Instr} (h : cmdWord? o = some w) (hd : decode w = .ok i) :
    fetchCommand o = .run i true := by
  simp [fetchCommand, h, hd]

theorem fetchCommand_reserved {o : Offer} {w : Word} {e : DecodeError} (h : cmdWord? o = some w)
    (hd : decode w = .error e) : fetchCommand o = .reserved e := by
  simp [fetchCommand, h, hd]

/-- Everything a step can do when it answers a next state (R132). -/
theorem step_cases (h : step s = .next t) :
    (s.env.rst = true ∧ t = resetTick s) ∨
    (s.env.rst = false ∧ s.regs.phase = .idle ∧ s.env.offer = .quiet ∧ t = hostMove false (idleTick s)) ∨
    (s.env.rst = false ∧ s.regs.phase = .idle ∧ ∃ w i u, cmdWord? s.env.offer = some w ∧ decode w = .ok i ∧
      exec i s = .next u ∧ t = hostMove true u) ∨
    (s.env.rst = false ∧ s.regs.phase = .send ∧ t = hostMove false (slotTick (beBit s.regs) s)) ∨
    (s.env.rst = false ∧ s.regs.phase = .latch ∧ t = hostMove false (latchTick s)) := by
  unfold step fetch at h
  cases hr : s.env.rst with
  | true =>
    simp [hr] at h
    exact .inl ⟨rfl, h.symm⟩
  | false =>
    simp only [hr, Bool.false_eq_true, if_false] at h
    cases hp : s.regs.phase with
    | idle =>
      simp only [hp, fetchCommand] at h
      cases ho : cmdWord? s.env.offer with
      | none =>
        have hq : s.env.offer = .quiet := by cases hof : s.env.offer <;> simp [cmdWord?, hof] at ho; rfl
        simp only [ho, Host.Outcome.next.injEq] at h
        rw [sequencerTick_idle hp] at h
        exact .inr (.inl ⟨rfl, rfl, hq, h.symm⟩)
      | some w =>
        cases hd : decode w with
        | error x => simp [ho, hd] at h
        | ok i =>
          simp only [ho, hd, andThen_eq_next] at h
          obtain ⟨u, hu, ht⟩ := h
          exact .inr (.inr (.inl ⟨rfl, rfl, w, i, u, rfl, hd, hu, ht⟩))
    | send =>
      simp only [hp, andThen_eq_next, exec_decodeRequest, emitTick_send hp] at h
      obtain ⟨u, hu, ht⟩ := h
      cases hu
      exact .inr (.inr (.inr (.inl ⟨rfl, rfl, ht⟩)))
    | latch =>
      simp only [hp, Host.Outcome.next.injEq] at h
      rw [sequencerTick_latch hp] at h
      exact .inr (.inr (.inr (.inr ⟨rfl, rfl, h.symm⟩)))

/-- A reset tick always has its next state (R250). -/
theorem step_reset (h : s.env.rst = true) : step s = .next (resetTick s) := by simp [step, fetch, h]

/-- A busy tick without reset always has its next state (R131). -/
theorem step_send (hr : s.env.rst = false) (hp : s.regs.phase = .send) :
    step s = .next (hostMove false (slotTick (beBit s.regs) s)) := by
  simp [step, fetch, hr, hp, exec_decodeRequest, emitTick_send hp]

theorem step_latch (hr : s.env.rst = false) (hp : s.regs.phase = .latch) :
    step s = .next (hostMove false (latchTick s)) := by
  simp [step, fetch, hr, hp, sequencerTick_latch hp]

/-- R195's comparison: a changed hue is offered for rendering. -/
theorem decideRender_changed {hue : Nat} (h : hue ≠ e.lastHue) :
    decideRender hue e = { e with loopState := .sampling (.issueColor hue), offer := .hold (renderWord hue) } := by
  rw [decideRender, if_pos h]

/-- R195's comparison: an unchanged hue ends the iteration. -/
theorem decideRender_unchanged {hue : Nat} (h : hue = e.lastHue) : decideRender hue e = finishIteration hue e := by
  rw [decideRender, if_neg (not_not_intro h)]

/-- With the ADC the loop stays Idle exactly while ticks of the boot wait remain (R199, R200). -/
@[simp] theorem staysIdle_adc {bootLeft : Nat} : staysIdle bootLeft .adc = true ↔ bootLeft ≠ 0 := by simp [staysIdle]

/-- A test bench whose offer does not stay makes its next one (R131, R137, R256). -/
theorem hostEnv_bench {agenda : List Offer} {a : Bool} (h : e.driver = .bench agenda) (ho : stillHeld a e.offer = false)
    (c : Bool) :
    (hostEnv a c e).offer = agenda.headD .quiet ∧ (hostEnv a c e).driver = .bench agenda.tail := by
  simp [hostEnv, h, benchMove, ho]

/-- An accepted offer does not stay (R131). -/
@[simp] theorem stillHeld_accepted (o : Offer) : stillHeld true o = false := by cases o <;> rfl

/-- The SensorLoop's move from Idle (R191). -/
theorem hostEnv_idle {sensor : Sensor} (h : e.driver = .sensorLoop sensor) (hl : e.loopState = .idle) (a c : Bool) :
    hostEnv a c e =
      if staysIdle (e.bootLeft - 1) sensor then nextInputs e
      else { nextInputs e with loopState := .sampling (.convert []) } := by
  simp only [hostEnv, h, loopMove, nextInputs_loopState, hl, nextInputs_bootLeft]
  rfl

/-- The SensorLoop's move while it gathers conversions (R192). -/
theorem hostEnv_convert {sensor : Sensor} {got : List (BitVec 10)} (h : e.driver = .sensorLoop sensor)
    (hl : e.loopState = .sampling (.convert got)) (a c : Bool) :
    hostEnv a c e = sampleMove e.draws got sensor (nextInputs e) := by
  simp only [hostEnv, h, loopMove, nextInputs_loopState, hl]

/-- The SensorLoop's ADC stays its sensor. -/
theorem hostEnv_driver_adc (h : e.driver = .sensorLoop .adc) (a c : Bool) : (hostEnv a c e).driver = .sensorLoop .adc := by
  simp only [hostEnv, h]
  unfold loopMove sampleMove gatherConversions decideRender
  repeat' split
  all_goals first | exact h | simp_all

/-- One tick of the boot wait passes with every move of the host (R200). -/
@[simp] theorem hostEnv_bootLeft (a c : Bool) (e : Env) : (hostEnv a c e).bootLeft = e.bootLeft - 1 := by
  unfold hostEnv loopMove benchMove sampleMove gatherConversions decideRender
  repeat' split
  all_goals rfl

/-- The host's move on the reset line: it takes the plan's next value (log 6). -/
@[simp] theorem hostEnv_rst (a c : Bool) (e : Env) : (hostEnv a c e).rst = e.rstPlan.headD false := by
  unfold hostEnv loopMove benchMove sampleMove gatherConversions decideRender
  repeat' split
  all_goals rfl

@[simp] theorem hostEnv_rstPlan (a c : Bool) (e : Env) : (hostEnv a c e).rstPlan = e.rstPlan.tail := by
  unfold hostEnv loopMove benchMove sampleMove gatherConversions decideRender
  repeat' split
  all_goals rfl

end Sys2Proof.Machine
end

