-- ==== Sys2Proof/Laws/PerInstr.lean ====
section
/-! SUPPORT. Per instruction: every encoding of it matches its row of the opcode map (R86). -/

namespace Sys2Proof.Laws.TableRow

/-- The row of R86 that an instruction's encoding matches: `(w and mask) = match`, with the row's own match and mask. -/
def Statement : Instr → Prop
  | .setrgb r g b => encode (.setrgb r g b) = .word (encodeRgb r g b) ∧ encodeRgb r g b &&& 0xFF000000#32 = 0x00000000#32
  | .hsv2rgb h s v => encode (.hsv2rgb h s v) = .word (encodeHsv h s v) ∧ encodeHsv h s v &&& 0xFF800000#32 = 0x40000000#32
  | .write => encode .write = .word encodeWrite ∧ encodeWrite &&& 0xFFFFFFFF#32 = 0x80000000#32
  | .emit0 => encode .emit0 = .request false
  | .emit1 => encode .emit1 = .request true

theorem setrgb (r g b : BitVec 8) : Statement (.setrgb r g b) := by
  refine ⟨rfl, ?_⟩
  apply BitVec.eq_of_getLsbD_eq
  intro i hi
  simp only [encodeRgb, BitVec.getLsbD_and, BitVec.getLsbD_append]
  interval_cases i <;> simp

theorem hsv2rgb (h : BitVec 9) (s v : BitVec 7) : Statement (.hsv2rgb h s v) := by
  refine ⟨rfl, ?_⟩
  apply BitVec.eq_of_getLsbD_eq
  intro i hi
  simp only [encodeHsv, BitVec.getLsbD_and, BitVec.getLsbD_append]
  interval_cases i <;> simp

theorem write : Statement .write := ⟨rfl, by decide⟩

theorem emit0 : Statement .emit0 := rfl

theorem emit1 : Statement .emit1 := rfl

end Sys2Proof.Laws.TableRow
end

