-- ==== Sys2Proof/Laws/Run.lean ====
section
/-! SUPPORT. Runs of several steps: one more step, two runs in a row, and `rst` low on the ticks they take. -/

namespace Sys2Proof.Machine

variable {s t u : State}

/-- One more step of the host interface's run. -/
theorem coreRun_succ (M : Host.Core) (k : Nat) (s : M.State) :
    M.run (k + 1) s = match M.step s with
      | .next t => M.run k t
      | .fault r => .fault r
      | .refused r => .refused r := by
  cases h : M.step s <;> simp [Host.Core.run, h]

/-- `runSteps` is the host interface's run of this machine. -/
theorem runSteps_eq_run (k : Nat) (s : State) : runSteps k s = Host.Core.run Sys2Proof.core k s := by
  induction k generalizing s with
  | zero => rfl
  | succ k ih =>
    have h := coreRun_succ Sys2Proof.core k s
    rw [runSteps]
    cases hs : step s with
    | next t =>
      rw [show Sys2Proof.core.step s = .next t from hs] at h
      exact (ih t).trans h.symm
    | fault r =>
      rw [show Sys2Proof.core.step s = .fault r from hs] at h
      exact h.symm
    | refused r =>
      rw [show Sys2Proof.core.step s = .refused r from hs] at h
      exact h.symm

theorem runSteps_succ_of_next {k : Nat} (h : step s = .next t) : runSteps (k + 1) s = runSteps k t := by
  rw [runSteps, h]

/-- Two runs in a row. -/
theorem runSteps_add {a b : Nat} (h : runSteps a s = .next t) : runSteps (a + b) s = runSteps b t := by
  induction a generalizing s with
  | zero => cases h; rw [Nat.zero_add]
  | succ a ih =>
    rw [show a + 1 + b = a + b + 1 by omega]
    rw [runSteps] at h ⊢
    cases hs : step s with
    | next u =>
      rw [hs] at h
      exact ih h
    | fault r => rw [hs] at h; cases h
    | refused r => rw [hs] at h; cases h

/-- One more step at the end of a run. -/
theorem runSteps_then_step {a : Nat} (h : runSteps a s = .next t) (hs : step t = .next u) :
    runSteps (a + 1) s = .next u := by
  rw [runSteps_add h, runSteps_succ_of_next hs, runSteps]

/-- `rst` low on some ticks is low on fewer. -/
theorem rstLowFor_mono {e : Env} {m n : Nat} (hmn : m ≤ n) (h : RstLowFor n e) : RstLowFor m e :=
  fun x hx => h x (List.take_subset_take_left _ hmn hx)

/-- `rst` low on the coming tick, the first of those it is low on. -/
theorem rst_of_rstLowFor {e : Env} {n : Nat} (h : RstLowFor (n + 1) e) : e.rst = false := h _ List.mem_cons_self

/-- Each move of the host leaves one tick fewer on which `rst` is known to be low. -/
theorem rstLowFor_hostEnv {e : Env} {n : Nat} (h : RstLowFor (n + 1) e) (a c : Bool) : RstLowFor n (hostEnv a c e) := by
  intro x hx
  rw [hostEnv_rst, hostEnv_rstPlan] at hx
  cases hp : e.rstPlan with
  | nil =>
    rw [hp] at hx
    simpa using List.mem_of_mem_take hx
  | cons y ys =>
    rw [hp] at hx
    exact h x (by rw [List.take_succ_cons, hp]; exact List.mem_cons_of_mem _ hx)

end Sys2Proof.Machine
end

