-- ==== Sys2Proof/Tests/Slice0.lean ====
section
/-! SUPPORT. The model's own tests. Expected results are the spec's: the formats of R84 written out bit by bit, and the vectors
V1 to V100 and examples E1 to E11 of 95_test_vectors.md. Then one witness for each statement with hypotheses. -/

namespace Sys2Proof.Tests

open Sys2Proof.Machine

/-- Core registers with colour (4, 0, 0) loaded, in IDLE. -/
def idleRegs : CoreRegs := { CoreRegs.reset with color := { r := 4, g := 0, b := 0 }, colorValid := true }

/-- The same in SEND at a position. -/
def sendRegs (k j n : Nat) : CoreRegs := { idleRegs with phase := .send, k := k, j := j, n := n, hf := true }

/-- The same in LATCH. -/
def latchRegs (l : Nat) : CoreRegs := { idleRegs with phase := .latch, l := l }

/-- A state with these registers, a test bench offering `o` and nothing after it. -/
def benchState (r : CoreRegs) (o : Offer) : State :=
  { State.reset with regs := r, env := { State.reset.env with offer := o, driver := .bench [] } }

/-- The same with a reset planned for the tick after the coming one. -/
def plannedReset (r : CoreRegs) : State :=
  { benchState r .quiet with env := { (benchState r .quiet).env with rstPlan := [true] } }

/-- `benchState` with `rst` = 1. -/
def rstState (r : CoreRegs) (o : Offer) : State :=
  { benchState r o with env := { (benchState r o).env with rst := true } }

/-- The SensorLoop at a stage, offering what that stage offers. -/
def loopStateAt (r : CoreRegs) (o : Offer) (l : LoopState) : State :=
  { State.reset with regs := r, env := { State.reset.env with offer := o, loopState := l } }

/-- The SensorLoop with a fake sensor, at a stage, the core idle and nothing offered. -/
def fakeState (hues : List Nat) (l : LoopState) : State :=
  { State.reset with env := { State.reset.env with driver := .sensorLoop (.fake hues), loopState := l } }

/-- The next state of a step, if there is one. -/
def next? (o : Out) : Option State :=
  match o with
  | .next s => some s
  | .fault _ => none
  | .refused _ => none

/-- The reason of a refusal, if there is one. -/
def refusal? (o : Out) : Option Refusal :=
  match o with
  | .next _ => none
  | .fault _ => none
  | .refused r => some r

/-! ## Well-formedness: one ill-formed term for each check (R151, R168) -/

theorem test_wf_refuses_hue_360 : (Instr.hsv2rgb 360 100 100).wf = false := by decide
theorem test_wf_refuses_saturation_101 : (Instr.hsv2rgb 0 101 100).wf = false := by decide
theorem test_wf_refuses_value_101 : (Instr.hsv2rgb 0 100 101).wf = false := by decide
theorem test_wf_accepts_domain_edge : (Instr.hsv2rgb 359 100 100).wf = true := by decide

/-! ## Decoding: words written out from the formats of R84, field by field -/

/-- op 00, zero 000000, r 10100101, g 00111100, b 10000001 (V43). -/
theorem test_decode_setrgb :
    decode 0b00_000000_10100101_00111100_10000001#32 = .ok (.setrgb 0xA5 0x3C 0x81) := by decide

/-- op 01, zero 0000000, h 011001000, s 1001011, v 1010000: HSV2RGB 200, 75, 80 (V25, word 0x403225D0). -/
theorem test_decode_hsv2rgb :
    decode 0b01_0000000_011001000_1001011_1010000#32 = .ok (.hsv2rgb 200 75 80) ∧
      0b01_0000000_011001000_1001011_1010000#32 = 0x403225D0#32 := by decide

/-- op 10, thirty zeros (R84, format N). -/
theorem test_decode_write : decode 0b10_000000000000000000000000000000#32 = .ok .write := by decide

/-- `be_bit` 0 and 1 (R88). -/
theorem test_decode_requests : decodeRequest false = .emit0 ∧ decodeRequest true = .emit1 := by decide

/-- V90 to V93: reserved words. -/
theorem test_decode_reserved :
    decode 0xC0000000#32 = .error .reservedOp ∧ decode 0x01040000#32 = .error .nonzeroReservedBits ∧
      decode 0x80000001#32 = .error .nonzeroReservedBits ∧ decode 0x40800000#32 = .error .nonzeroReservedBits := by decide

/-- The words of P3 and P4, encoded (95_test_vectors.md, Part 3). -/
theorem test_encode_program_words :
    programWords [.hsv2rgb 45 100 20, .write, .hsv2rgb 60 100 100, .setrgb 4 0 0] =
      [0x400B7214#32, 0x80000000#32, 0x400F3264#32, 0x00040000#32] := by decide

/-- The table's rows in its own bit numbering, fields zero. -/
theorem test_decode_table_rows :
    decodeTableWord 32 0x00000000 = some (.setrgb 0 0 0) ∧ decodeTableWord 32 0x40000000 = some (.hsv2rgb 0 0 0) ∧
      decodeTableWord 32 0x80000000 = some .write ∧ decodeTableWord 8 0 = some .emit0 ∧
      decodeTableWord 8 1 = some .emit1 ∧ decodeTableWord 32 0xC0000000 = none := by decide

/-- `SHOW 240, 100, 20 ; x` is HSV2RGB and WRITE, `FILL 0x04, 0, 0` SETRGB and WRITE (R90, R91); `SETRGB 256, 0, 0` is no command. -/
theorem test_assemble :
    assembleLine ['S', 'H', 'O', 'W', ' ', '2', '4', '0', ',', ' ', '1', '0', '0', ',', '2', '0', ' ', ';', 'x'] =
        some [.hsv2rgb 240 100 20, .write] ∧
      assembleLine ['F', 'I', 'L', 'L', ' ', '0', 'x', '0', '4', ',', '0', ',', '0'] = some [.setrgb 4 0 0, .write] ∧
      assembleLine ['S', 'E', 'T', 'R', 'G', 'B', ' ', '2', '5', '6', ',', '0', ',', '0'] = none ∧
      assembleLine ['W', 'R', 'I', 'T', 'E', ' ', '1'] = none ∧ assembleLine [] = some [] := by decide

/-- A host command placed after reset runs, but WRITE, which V98 says is refused; a request placed after reset runs. -/
theorem test_step_runs_placed_words :
    (next? (step (State.reset.withFetchWord 32 0x00040506))).map (fun t => t.regs.color) =
        some { r := 4, g := 5, b := 6 } ∧
      (next? (step (State.reset.withFetchWord 32 0x403C3214))).map (fun t => t.regs.color) =
        some { r := 0, g := 0, b := 51 } ∧
      refusal? (step (State.reset.withFetchWord 32 0x80000000)) = some .colorUnwritten ∧
      (next? (step (State.reset.withFetchWord 8 0))).map (fun t => t.obs.sigma) = some [false] ∧
      (next? (step (State.reset.withFetchWord 8 1))).map (fun t => t.obs.sigma) = some [true] := by decide

/-! ## The ColorModel -/

/-- V1 to V5. -/
theorem test_hsv_achromatic :
    hsvToRgb 0 0 0 = ⟨0, 0, 0⟩ ∧ hsvToRgb 17 0 50 = ⟨128, 128, 128⟩ ∧ hsvToRgb 200 0 10 = ⟨26, 26, 26⟩ ∧
      hsvToRgb 0 0 100 = ⟨255, 255, 255⟩ ∧ hsvToRgb 359 0 50 = ⟨128, 128, 128⟩ := by decide

/-- V7 to V17: the last hue of a sector and the first of the next, at full saturation and value. -/
theorem test_hsv_sector_edges :
    hsvToRgb 59 100 100 = ⟨255, 250, 0⟩ ∧ hsvToRgb 60 100 100 = ⟨255, 255, 0⟩ ∧ hsvToRgb 119 100 100 = ⟨5, 255, 0⟩ ∧
      hsvToRgb 120 100 100 = ⟨0, 255, 0⟩ ∧ hsvToRgb 179 100 100 = ⟨0, 255, 250⟩ ∧ hsvToRgb 180 100 100 = ⟨0, 255, 255⟩ ∧
      hsvToRgb 239 100 100 = ⟨0, 5, 255⟩ ∧ hsvToRgb 240 100 100 = ⟨0, 0, 255⟩ ∧ hsvToRgb 299 100 100 = ⟨250, 0, 255⟩ ∧
      hsvToRgb 300 100 100 = ⟨255, 0, 255⟩ ∧ hsvToRgb 359 100 100 = ⟨255, 0, 5⟩ := by decide

/-- V18, V19, V21 to V30, and V31 to V37 at the host's operating point. -/
theorem test_hsv_general :
    hsvToRgb 1 100 100 = ⟨255, 3, 0⟩ ∧ hsvToRgb 6 100 100 = ⟨255, 26, 0⟩ ∧ hsvToRgb 270 100 100 = ⟨128, 0, 255⟩ ∧
      hsvToRgb 300 100 50 = ⟨128, 0, 128⟩ ∧ hsvToRgb 180 50 100 = ⟨128, 255, 255⟩ ∧ hsvToRgb 30 50 50 = ⟨128, 94, 64⟩ ∧
      hsvToRgb 200 75 80 = ⟨51, 153, 204⟩ ∧ hsvToRgb 330 1 100 = ⟨255, 252, 252⟩ ∧ hsvToRgb 359 100 1 = ⟨3, 0, 0⟩ ∧
      hsvToRgb 123 37 64 = ⟨102, 163, 105⟩ ∧ hsvToRgb 90 100 0 = ⟨0, 0, 0⟩ ∧ hsvToRgb 210 60 90 = ⟨92, 161, 230⟩ ∧
      hsvToRgb 45 100 20 = ⟨51, 38, 0⟩ ∧ hsvToRgb 46 100 20 = ⟨51, 38, 0⟩ ∧ hsvToRgb 150 100 20 = ⟨0, 51, 26⟩ ∧
      hsvToRgb 359 100 20 = ⟨51, 0, 0⟩ := by decide

/-- V28's intermediates: sh 205, i 200, f 5, p 40, q 62, t 41. -/
theorem test_hsv_intermediates :
    scaledHue 123 = 205 ∧ sectorBase 205 = 200 ∧ hueFraction 205 = 5 ∧ pOf 37 64 = 40 ∧ qOf 37 64 5 = 62 ∧
      tOf 37 64 5 = 41 := by decide

/-! ## SETRGB, HSV2RGB, WRITE, EMIT0, EMIT1: one tick each -/

/-- V41: one tick loads the colour and samples the line low. -/
theorem test_setrgb_tick :
    (next? (step (benchState CoreRegs.reset (.hold 0x00332600#32)))).map (fun t => (t.regs.color, t.regs.colorValid, t.obs.w)) =
      some ({ r := 51, g := 38, b := 0 }, true, [false]) := by decide

/-- V36 by a step; V94, V96, V97 refused. -/
theorem test_hsv2rgb_tick :
    (next? (step (benchState CoreRegs.reset (.hold 0x403C3214#32)))).map (fun t => t.regs.color) =
        some { r := 0, g := 0, b := 51 } ∧
      refusal? (step (benchState idleRegs (.hold 0x405A3264#32))) = some .operandOutOfDomain ∧
      refusal? (step (benchState idleRegs (.hold 0x400032E4#32))) = some .operandOutOfDomain ∧
      refusal? (step (benchState idleRegs (.hold 0x40003265#32))) = some .operandOutOfDomain := by decide

/-- P1, tick 1: WRITE accepted, the line still low, SEND and HF from the next tick. -/
theorem test_write_tick :
    (next? (step (benchState idleRegs (.hold 0x80000000#32)))).map (fun t => (t.regs.phase, t.regs.hf, t.obs.w, busy t.regs)) =
      some (.send, true, [false], true) := by decide

/-- V98 and P5: WRITE first after reset; V90 to V93: reserved words. -/
theorem test_step_refusals :
    refusal? (step (benchState CoreRegs.reset (.hold 0x80000000#32))) = some .colorUnwritten ∧
      refusal? (step (benchState idleRegs (.hold 0xC0000000#32))) = some .reservedCommand ∧
      refusal? (step (benchState idleRegs (.hold 0x80000001#32))) = some .reservedCommand := by decide

/-- V60, tick 8: the frame's first bit is 0 and N0H = 8, so the line is low from N = 8; at N = 7 it was high. -/
theorem test_emit0_falls_after_8 :
    (next? (exec .emit0 (benchState (sendRegs 0 0 7) .quiet))).map (fun t => t.obs.w) = some [true] ∧
      (next? (exec .emit0 (benchState (sendRegs 0 0 8) .quiet))).map (fun t => t.obs.w) = some [false] := by decide

/-- V60, ticks 340 and 341: J = 13 is the one 1 bit (R[2]), high through N = 15. -/
theorem test_emit1_falls_after_16 :
    framebit { r := 4, g := 0, b := 0 } 13 = true ∧
      (next? (step (benchState (sendRegs 0 13 15) .quiet))).map (fun t => t.obs.w) = some [true] ∧
      (next? (step (benchState (sendRegs 0 13 16) .quiet))).map (fun t => t.obs.w) = some [false] := by decide

/-- V60, ticks 599 to 600 and 35999 to the gap: the positions after a pixel-frame's and the frame's last tick. -/
theorem test_sequencer_edges :
    (next? (step (benchState (sendRegs 0 23 24) .quiet))).map (fun t => t.regs) = some (sendRegs 1 0 0) ∧
      (next? (step (benchState (sendRegs 59 23 24) .quiet))).map (fun t => t.regs) = some (latchRegs 0) := by decide

/-- The last tick of the gap: IDLE, the frame recorded and shown (R132). -/
theorem test_gap_ends :
    (next? (step (benchState (latchRegs 999) .quiet))).map (fun t => (t.regs, t.obs.frames, t.shown)) =
      some (idleRegs, [List.replicate 60 { r := 4, g := 0, b := 0 }],
        .strip (List.replicate 60 { r := 4, g := 0, b := 0 })) := by decide

/-- V99 and V100: a word offered while busy is ignored; with `rst` = 1 reset wins. -/
theorem test_ignored_and_reset :
    (next? (step (benchState (sendRegs 0 0 0) (.hold 0xC0000000#32)))).map (fun t => t.env.offer) =
        some (.hold 0xC0000000#32) ∧
      (next? (step (rstState (sendRegs 0 0 0) (.hold 0xC0000000#32)))).map (fun t => (t.regs.phase, t.regs.colorValid, t.shown)) =
        some (.idle, false, .unspecified) := by decide

/-- P1's first two ticks: the second word is on the port on the tick after the first is accepted. -/
theorem test_program_offers_back_to_back :
    (next? (step (loadProgram [0x00040000#32, 0x80000000#32] State.reset))).map (fun t => (t.env.offer, t.env.driver)) =
      some (.hold 0x80000000#32, .bench []) := by decide

/-! ## The wire -/

/-- V50, V51: the symbols at the defaults. -/
theorem test_symbols :
    sym Config.defaults false = [true, true, true, true, true, true, true, true, false, false, false, false, false, false,
        false, false, false, false, false, false, false, false, false, false, false] ∧
      sym Config.defaults true = [true, true, true, true, true, true, true, true, true, true, true, true, true, true, true,
        true, false, false, false, false, false, false, false, false, false] := by decide

/-- V43: 00111100 10100101 10000001. -/
theorem test_pixbits :
    pixbits { r := 0xA5, g := 0x3C, b := 0x81 } =
      [false, false, true, true, true, true, false, false, true, false, true, false, false, true, false, true,
        true, false, false, false, false, false, false, true] := by decide

/-- V52 read back: 1, 0; a high run of 9 ticks is no symbol (R78). -/
theorem test_read_wire :
    readBits Config.defaults (wireOf Config.defaults [true, false]) = some [true, false] ∧
      readWire Config.defaults (List.replicate 9 true ++ List.replicate 20 false) = none := by decide

/-- R9, R8: the defaults meet their constraints, and a slot is 1250 ns. -/
theorem test_defaults_valid :
    Config.defaults.Valid ∧ Config.defaults.SlotBelowGap ∧ Config.defaults.nBit * Config.defaults.tClkNs = tBitNs ∧
      Config.defaults.nl false = 17 ∧ Config.defaults.nl true = 9 ∧ frameTicks Config.defaults = 37000 := by decide

/-! ## The host -/

/-- V70, V73, V77, V79 to V83. -/
theorem test_hue_map :
    clipHue (mapHue 0) = 120 ∧ clipHue (mapHue 5) = 121 ∧ clipHue (mapHue 500) = 240 ∧ clipHue (mapHue 999) = 359 ∧
      clipHue (mapHue 1000) = 0 ∧ clipHue (mapHue 1005) = 0 ∧ clipHue (mapHue 1023) = 0 := by decide

/-- R192's averages: nine of 1023 and one of 1022 give 1022. -/
theorem test_average : averageRaw [1023, 1023, 1023, 1023, 1023, 1023, 1023, 1023, 1023, 1022] = 1022 := by decide

/-- E8, P3: hues 45, 45, 46 from the sentinel. -/
theorem test_loop_end_to_end :
    loopRun 511 [45, 45, 46] = [[.hsv2rgb 45 100 20, .write], [], [.hsv2rgb 46 100 20, .write]] := by decide

/-- E8's first iteration at the port: from Sampling with a fake sensor at 45, HSV2RGB 45, 100, 20 (0x400B7214) is offered. -/
theorem test_fake_sensor_offers_render :
    (hostEnv false true { State.reset.env with driver := .sensorLoop (.fake [45, 45, 46]), loopState := .sampling (.convert []) }).offer =
      .hold 0x400B7214#32 := by decide

/-! ## Witnesses: a concrete state and operands for each statement with hypotheses, in the obligations' order -/

theorem witness_encode_of_decode : decode 0x403C3214#32 = .ok (.hsv2rgb 240 100 20) := by decide

/-- Each clause of RowsMatchByMask. -/
theorem witness_rows :
    0x00A53C81#32 &&& 0xFF000000#32 = 0x00000000#32 ∧ 0x407FFFFF#32 &&& 0xFF800000#32 = 0x40000000#32 ∧
      0x80000000#32 &&& 0xFFFFFFFF#32 = 0x80000000#32 ∧ ∃ i, decode 0x00FFFFFF#32 = .ok i :=
  ⟨by decide, by decide, by decide, .setrgb 255 255 255, by decide⟩

/-- A state for both clauses of ReservedAndOutOfDomainWordsRefused, with a word of each kind at a field's edge. -/
theorem witness_reserved_and_out_of_domain (w : Word) :
    (benchState idleRegs (.hold w)).env.rst = false ∧ (benchState idleRegs (.hold w)).regs.phase = .idle ∧
      cmdWord? (benchState idleRegs (.hold w)).env.offer = some w := ⟨rfl, rfl, rfl⟩

theorem witness_reserved_words :
    (0xFFFFFFFF#32).extractLsb' 30 2 = 0b11#2 ∧
      ((0x01000000#32).extractLsb' 30 2 = 0b00#2 ∧ (0x01000000#32).extractLsb' 24 6 ≠ 0#6) ∧
      ((0x40800000#32).extractLsb' 30 2 = 0b01#2 ∧ (0x40800000#32).extractLsb' 23 7 ≠ 0#7) ∧
      ((0x80000001#32).extractLsb' 30 2 = 0b10#2 ∧ (0x80000001#32).extractLsb' 0 30 ≠ 0#30) := by decide

theorem witness_out_of_domain_word :
    (0x405A0000#32).extractLsb' 30 2 = 0b01#2 ∧ (0x405A0000#32).extractLsb' 23 7 = 0#7 ∧
      360 ≤ ((0x405A0000#32).extractLsb' 14 9).toNat ∧ 101 ≤ ((0x40003280#32).extractLsb' 7 7).toNat ∧
      101 ≤ ((0x40000065#32).extractLsb' 0 7).toNat := by decide

theorem witness_idle : (benchState idleRegs .quiet).regs.phase = .idle := by decide

theorem witness_hsv_domain_edges :
    (359 : BitVec 9).toNat < 360 ∧ (100 : BitVec 7).toNat ≤ 100 ∧ (0 : BitVec 9).toNat < 360 ∧ (0 : BitVec 7).toNat ≤ 100 := by
  decide

theorem witness_write : (benchState idleRegs .quiet).regs.phase = .idle ∧ (benchState idleRegs .quiet).regs.colorValid = true := by
  decide

theorem witness_write_without_color : State.reset.regs.phase = .idle ∧ State.reset.regs.colorValid = false := by decide

theorem witness_hsv_outside : 360 ≤ (360 : BitVec 9).toNat ∧ 101 ≤ (101 : BitVec 7).toNat := by decide

theorem witness_send : (benchState (sendRegs 59 23 24) .quiet).regs.phase = .send := by decide

theorem witness_not_send : State.reset.regs.phase ≠ .send ∧ (benchState (latchRegs 0) .quiet).regs.phase ≠ .send := by decide

/-- CommandWhileBusyIsIgnored: SEND, and both clauses of LATCH. -/
theorem witness_command_while_busy :
    Instr.write.isCommand = true ∧ (benchState (sendRegs 0 0 0) .quiet).regs.phase = .send ∧
      (benchState (latchRegs 998) .quiet).regs.phase = .latch ∧ 998 < 1000 - 1 ∧
      (benchState (latchRegs 999) .quiet).regs.phase = .latch ∧ ¬ 999 < 1000 - 1 := by decide

/-- CommandFrame: a load and a WRITE that answer a next state in IDLE. -/
theorem witness_command_frame :
    Instr.write.isCommand = true ∧ (next? (exec .write (benchState idleRegs .quiet))).isSome = true ∧
      (Instr.setrgb 1 2 3).isCommand = true ∧ (next? (exec (.setrgb 1 2 3) (benchState idleRegs .quiet))).isSome = true := by
  decide

/-- EmitFrame, inside the frame and at its last tick. -/
theorem witness_emit_frame :
    (next? (exec .emit0 (benchState (sendRegs 0 0 0) .quiet))).isSome = true ∧ ¬ (25 - 1 ≤ 0 ∧ 23 ≤ 0 ∧ 59 ≤ 0) ∧
      (next? (exec .emit1 (benchState (sendRegs 59 23 24) .quiet))).isSome = true := by decide

/-- ParametersNeverChange, StepKeepsInvariant and the like: a step that answers a next state. -/
theorem witness_step : (next? (step (benchState (latchRegs 999) .quiet))).isSome = true := by decide

/-- ColorWrittenOnlyByLoads: a step that changes COLOR. -/
theorem witness_color_changes :
    (next? (step (benchState idleRegs (.hold 0x00332600#32)))).map (fun t => decide (t.regs.color ≠ idleRegs.color)) = some true := by
  decide

/-- StepRunsDecodedInstruction: its IDLE clause, its SEND clause, its LATCH clause with a reset planned for later (inside the
gap and on its last tick), and its bench clause (the step is test_program_offers_back_to_back's). -/
theorem witness_step_runs :
    (benchState idleRegs (.pulse 0x80000000#32)).env.rst = false ∧
      cmdWord? (benchState idleRegs (.pulse 0x80000000#32)).env.offer = some 0x80000000#32 ∧
      decode 0x80000000#32 = .ok .write ∧ (benchState (sendRegs 0 0 0) .quiet).env.rst = false ∧
      (benchState (sendRegs 0 0 0) .quiet).regs.phase = .send ∧
      (plannedReset (latchRegs 998)).env.rst = false ∧ (plannedReset (latchRegs 998)).regs.phase = .latch ∧
      (plannedReset (latchRegs 999)).env.rst = false ∧ (plannedReset (latchRegs 999)).regs.phase = .latch ∧
      (loadProgram [0x00040000#32, 0x80000000#32] State.reset).env.driver = .bench [.hold 0x80000000#32] ∧
      cmdWord? (loadProgram [0x00040000#32, 0x80000000#32] State.reset).env.offer = some 0x00040000#32 ∧
      decode 0x00040000#32 = .ok (.setrgb 4 0 0) := by decide

/-- IdleTickChangesNothing, with the SensorLoop and with a bench at the port. -/
theorem witness_idle_tick :
    State.reset.env.rst = false ∧ State.reset.regs.phase = .idle ∧ cmdValid State.reset.env.offer = false ∧
      (benchState idleRegs .quiet).env.rst = false ∧ (benchState idleRegs .quiet).regs.phase = .idle ∧
      cmdValid (benchState idleRegs .quiet).env.offer = false ∧ (benchState idleRegs .quiet).env.driver = .bench [] := by
  decide

/-- RefusedExactlyWhereTheSpecRefuses: each of the three reasons is met (and test_step_refusals shows them). -/
theorem witness_refused :
    decode 0xC0000000#32 = .error .reservedOp ∧ decode 0x405A0000#32 = .ok (.hsv2rgb 360 0 0) ∧
      decode 0x80000000#32 = .ok .write ∧ State.reset.regs.colorValid = false := by decide

/-- TracesRecordEachTick, on the first tick of a slot and on the gap's last tick. -/
theorem witness_traces :
    (benchState (sendRegs 0 13 0) .quiet).env.rst = false ∧
      (next? (step (benchState (sendRegs 0 13 0) .quiet))).map (fun t => t.obs.sigma) = some [true] ∧
      (next? (step (benchState (latchRegs 999) .quiet))).map (fun t => t.obs.frames.length) = some 1 := by decide

/-- TracesNeverRead: a next state and a refusal. -/
theorem witness_traces_never_read :
    (next? (step State.reset)).isSome = true ∧
      refusal? (step (benchState idleRegs (.hold 0xC0000000#32))) = some .reservedCommand := by decide

/-- BusyIgnoresCommandPort, with a bench and both kinds of offer. -/
theorem witness_busy :
    (benchState (latchRegs 0) .quiet).env.rst = false ∧ (benchState (latchRegs 0) .quiet).regs.phase ≠ .idle ∧
      (benchState (latchRegs 0) .quiet).env.driver = .bench [] ∧
      (Offer.hold 0x80000000#32 = Offer.hold 0x80000000#32) ∧ (Offer.pulse 1#32 = Offer.pulse 1#32) := by decide

/-- The two reset-tick statements, from IDLE and from SEND, with a held word. -/
theorem witness_reset_tick :
    (rstState idleRegs .quiet).env.rst = true ∧ (rstState idleRegs .quiet).regs.phase = .idle ∧
      (rstState (sendRegs 0 0 0) (.hold 1#32)).env.rst = true ∧ (rstState (sendRegs 0 0 0) (.hold 1#32)).regs.phase ≠ .idle ∧
      (rstState (sendRegs 0 0 0) (.hold 1#32)).env.driver = .bench [] ∧
      (rstState (sendRegs 0 0 0) (.hold 1#32)).env.offer = .hold 1#32 := by decide

/-- R38's invariant in a state of SEND with one slot begun. -/
def midFrame : State :=
  { benchState (sendRegs 0 0 1) .quiet with obs := { w := [false, true], sigma := [false], frames := [] } }

theorem witness_invariant : Inv midFrame := by
  refine ⟨by decide, ?_, by decide⟩
  constructor <;> decide

/-- SlotTakesNBitTicks, within a pixel-frame and at its two edges. -/
theorem witness_slot :
    Config.defaults.Valid ∧ (benchState (sendRegs 59 23 0) .quiet).regs.phase = .send ∧
      (benchState (sendRegs 59 23 0) .quiet).regs.n = 0 ∧ (benchState (sendRegs 58 23 0) .quiet).regs.n = 0 ∧
      (benchState (sendRegs 0 0 0) .quiet).regs.n = 0 := by decide

/-- `rst` low for a slot, for a gap, for a whole WRITE, and for three ticks before a planned reset. -/
theorem witness_rst_low :
    RstLowFor 25 (benchState (sendRegs 0 0 0) .quiet).env ∧ RstLowFor 1000 (benchState (latchRegs 0) .quiet).env ∧
      RstLowFor (1 + (24 * 60 * 25 + 1000)) (benchState idleRegs .quiet).env ∧
      RstLowFor 3 { (benchState (sendRegs 0 0 0) .quiet).env with rstPlan := [false, false, true] } := by
  unfold RstLowFor
  decide

/-- The two reading-back statements and LowRunsInsideFrameAreShort. -/
theorem witness_valid_config : Config.defaults.Valid ∧ Config.defaults.SlotBelowGap := by decide

theorem witness_low_run :
    (runsOf (wireOf Config.defaults [false])).map (fun r => (r.level, r.len)) = [(true, 8), (false, 17)] := by decide

/-- WireOrderIsGreenRedBlueMsbFirst, at each channel's first and last position. -/
theorem witness_wire_positions : 0 < 24 ∧ 7 / 8 = 0 ∧ 8 / 8 = 1 ∧ 15 / 8 = 1 ∧ 16 / 8 = 2 ∧ 23 < 24 := by decide

/-- RequestsOfAnyStrip: the last Pixel of a strip of two, bits 0 and 7. -/
theorem witness_strip :
    ([⟨1, 2, 3⟩, ⟨4, 5, 6⟩] : List Pixel)[1]? = some ⟨4, 5, 6⟩ ∧ 0 < 8 ∧ 7 < 8 := by decide

theorem witness_gap :
    (benchState (latchRegs 0) .quiet).regs.phase = .latch ∧ (benchState (latchRegs 0) .quiet).regs.l = 0 ∧
      0 < (benchState (latchRegs 0) .quiet).cfg.nReset := by decide

/-- WriteTicksAgreeWithBigStep. -/
theorem witness_whole_write : RegsInv Config.defaults idleRegs := by
  constructor <;> decide

theorem witness_whole_write_state :
    (benchState idleRegs (.hold 0x80000000#32)).cfg.Valid ∧ (benchState idleRegs (.hold 0x80000000#32)).regs = idleRegs ∧
      idleRegs.phase = .idle ∧ idleRegs.colorValid = true ∧
      cmdWord? (benchState idleRegs (.hold 0x80000000#32)).env.offer = some 0x80000000#32 ∧
      (benchState idleRegs (.hold 0x80000000#32)).env.rst = false ∧
      (benchState idleRegs (.hold 0x80000000#32)).env.rstPlan = [] := by decide

/-- The ColorModel's statements: the edges of the domain, and a hue of each sector. -/
theorem witness_hsv_statements :
    359 < 360 ∧ 1 ≤ 1 ∧ 100 ≤ 100 ∧ sectorOf 0 = 0 ∧ sectorOf 60 = 1 ∧ sectorOf 120 = 2 ∧ sectorOf 180 = 3 ∧
      sectorOf 240 = 4 ∧ sectorOf 359 = 5 := by decide

/-- SampledHueIsAHue: ten conversions below, at and above the clip. -/
theorem witness_conversions :
    (List.replicate 10 (1000 : BitVec 10)).length = 10 ∧ averageRaw (List.replicate 10 1000) = 1000 ∧
      averageRaw (List.replicate 10 999) = 999 := by decide

/-- LoopRendersExactlyOnChange: the first hue, a repeated one, a changed one. -/
theorem witness_loop_run :
    [45, 45, 46][0]? = some 45 ∧ [45, 45, 46][1]? = some 45 ∧ [45, 45, 46][2]? = some 46 := by decide

/-- RenderRunsConversionThenWrite and SensorLoopIsNeverRefused: one state for each stage. -/
theorem witness_loop_issue_color :
    LoopInv (loopStateAt idleRegs (.hold (renderWord 359)) (.sampling (.issueColor 359))) := ⟨trivial, rfl, by decide, rfl⟩

theorem witness_loop_issue_write :
    LoopInv (loopStateAt idleRegs (.hold encodeWrite) (.sampling (.issueWrite 0))) := ⟨trivial, rfl, by decide, rfl, rfl⟩

theorem witness_loop_await_write :
    LoopInv (loopStateAt (latchRegs 999) .quiet (.sampling (.awaitWrite 240))) := ⟨trivial, rfl, by decide⟩

/-- IdleWaitsThenSamples: the ADC's boot wait, its last tick, and a fake sensor with and without hues. -/
theorem witness_loop_idle :
    LoopInv State.reset ∧ 1 < State.reset.env.bootLeft ∧
      LoopInv { State.reset with env := { State.reset.env with bootLeft := 1 } } ∧
      LoopInv (fakeState [45] .idle) ∧ LoopInv (fakeState [] .idle) :=
  ⟨⟨trivial, rfl, rfl⟩, by decide, ⟨trivial, rfl, rfl⟩, ⟨by unfold SensorLegal; decide, rfl, rfl⟩,
    ⟨by unfold SensorLegal; decide, rfl, rfl⟩⟩

/-- IdleEndsWithTheBootWait: two ticks of the wait left, then none. -/
theorem witness_idle_ends :
    LoopInv { State.reset with env := { State.reset.env with bootLeft := 2 } } ∧
      RstLowFor (max 1 2) { State.reset.env with bootLeft := 2 } ∧
      RstLowFor (max 1 0) { State.reset.env with bootLeft := 0 } := by
  refine ⟨⟨trivial, rfl, rfl⟩, ?_⟩
  unfold RstLowFor
  decide

/-- R199: with the boot wait over, Idle lasts one tick. -/
theorem test_idle_ends :
    (next? (step { State.reset with env := { State.reset.env with bootLeft := 0 } })).map (fun t => t.env.loopState) =
      some (.sampling (.convert [])) := by decide

/-- StepRendersExactlyOnChange: the ADC with no conversion and with nine, a fake sensor at a new hue and at the last one. -/
theorem witness_loop_convert :
    LoopInv (loopStateAt idleRegs .quiet (.sampling (.convert []))) ∧ ([0] : List (BitVec 10)).length < 10 ∧
      LoopInv (loopStateAt idleRegs .quiet (.sampling (.convert (List.replicate 9 500)))) ∧
      10 ≤ (List.replicate 9 (500 : BitVec 10) ++ [0]).length ∧
      LoopInv (fakeState [45] (.sampling (.convert []))) ∧ 45 ≠ (fakeState [45] .idle).env.lastHue :=
  ⟨⟨trivial, rfl, rfl⟩, by decide, ⟨trivial, rfl, rfl⟩, by decide, ⟨by unfold SensorLegal; decide, rfl, rfl⟩, by decide⟩

/-- StepRendersExactlyOnChange, the unchanged hue: nothing offered, Idle again (E8's second sample). -/
theorem test_unchanged_hue_is_not_rendered :
    (next? (step { fakeState [45, 46] (.sampling (.convert [])) with
      env := { (fakeState [45, 46] (.sampling (.convert []))).env with lastHue := 45 } })).map
        (fun t => (t.env.offer, t.env.loopState, t.env.lastHue)) = some (.quiet, .idle, 45) := by decide

/-- LastHueWrittenOnlyByIterations: the gap's last tick writes it. -/
theorem witness_last_hue_written :
    (next? (step (loopStateAt (latchRegs 999) .quiet (.sampling (.awaitWrite 240))))).map (fun t => t.env.lastHue) =
      some 240 ∧ (loopStateAt (latchRegs 999) .quiet (.sampling (.awaitWrite 240))).env.lastHue = 511 := by decide

/-- BootWaitCoversFirstGap, its first clause: reset (which meets the other invariants too, below). -/
theorem witness_boot : BootInv State.reset := ⟨rfl, .inr ⟨rfl, by decide, by decide⟩⟩

/-- A gap of two ticks held, WRITE offered by the SensorLoop. -/
def heldGapState : State :=
  { loopStateAt idleRegs (.hold encodeWrite) (.sampling (.issueWrite 240)) with
    cfg := { Config.defaults with nReset := 2, tClkNs := 25000 }
    obs := { w := [false, false], sigma := [], frames := [] } }

/-- BootWaitCoversFirstGap, its second clause: the step starts the frame. -/
theorem witness_boot_frame :
    Inv heldGapState ∧ LoopInv heldGapState ∧ BootInv heldGapState ∧
      (next? (step heldGapState)).map (fun t => t.regs.phase) = some .send := by
  refine ⟨⟨by decide, ?_, by decide⟩, ⟨trivial, rfl, by decide, rfl, rfl⟩, ⟨rfl, .inl (by decide)⟩, by decide⟩
  constructor <;> decide

/-- ResetStartsBootWait: a reset tick with the ADC at the port. -/
theorem witness_boot_restart :
    let s := { State.reset with env := { State.reset.env with rst := true, bootLeft := 0 } }
    s.env.rst = true ∧ s.env.driver = .sensorLoop .adc ∧
      (next? (step s)).map (fun t => t.env.bootLeft) = some 10000000 := by decide

/-- ConversionWrittenOut: a hue of each sector and its edges, with R155's fraction not 0 or 50, so that q and t differ. -/
theorem witness_conversion :
    1 ≠ 0 ∧ 13 < 60 ∧ (60 ≤ 73 ∧ 73 < 120) ∧ (120 ≤ 133 ∧ 133 < 180) ∧ (180 ≤ 193 ∧ 193 < 240) ∧
      (240 ≤ 253 ∧ 253 < 300) ∧ (300 ≤ 313 ∧ 313 < 360) := by decide

/-- OutputPortsFollowState: the ports in SEND at a slot's first and last tick and in LATCH. -/
theorem test_output_ports :
    busy (sendRegs 0 0 0) = true ∧ cmdReady (sendRegs 0 0 0) = false ∧ hfOut (sendRegs 0 0 0) = true ∧
      dout Config.defaults (sendRegs 0 0 0) = true ∧ dout Config.defaults (sendRegs 0 0 24) = false ∧
      busy (latchRegs 0) = true ∧ cmdReady (latchRegs 0) = false ∧ hfOut (latchRegs 0) = false ∧
      dout Config.defaults (latchRegs 0) = false := by decide

theorem witness_loop_and_invariant : Inv State.reset ∧ LoopInv State.reset := by
  refine ⟨⟨by decide, ?_, by decide⟩, trivial, rfl, rfl⟩
  constructor <;> decide

end Sys2Proof.Tests
end

section
/-! PROOFS. The scope's statements: the parameters are fixed (R8, R9). -/

namespace Sys2Proof.Machine

variable {s t : State}

/-- A command taken in IDLE leaves the parameters: it loads a colour or starts a frame (R8, R120, R121, R150). -/
theorem exec_command_idle_cfg (hp : s.regs.phase = .idle) {i : Instr} (hi : i.isCommand = true)
    (he : exec i s = .next t) : t.cfg = s.cfg := by
  obtain ⟨r, g, b, -, rfl⟩ | ⟨hue, sat, val, -, -, rfl⟩ | ⟨-, -, rfl⟩ := exec_command_idle hp hi he
  · exact loadColor_cfg _ s
  · exact loadColor_cfg _ s
  · exact startFrame_cfg s

/-- Settles O16: each kind of tick, and the host's move beside it, keeps the parameters. -/
theorem parametersNeverChange : Obligations.ParametersNeverChange := by
  intro s t hstep
  obtain ⟨-, rfl⟩ | ⟨-, -, -, rfl⟩ | ⟨-, hp, w, i, u, -, hd, he, rfl⟩ | ⟨-, -, rfl⟩ | ⟨-, -, rfl⟩ := step_cases hstep
  · exact resetTick_cfg s
  · rw [hostMove_cfg, idleTick_cfg]
  · rw [hostMove_cfg, exec_command_idle_cfg hp (decode_isCommand hd) he]
  · rw [hostMove_cfg, slotTick_cfg]
  · rw [hostMove_cfg, latchTick_cfg]

end Sys2Proof.Machine
end

section
/-! PROOFS. Support for the state's statements: what a tick adds to the traces, the output ports, the host on a reset tick, a
step with the traces forgotten, and R38's invariant tick by tick. -/

namespace Sys2Proof.Machine

variable {s t : State} {r : CoreRegs} {c : Config}

/-! ## The output ports (R30 to R32) -/

theorem busy_iff : busy r = true ↔ r.phase = .send ∨ r.phase = .latch := by
  rw [busy_eq_true]
  cases r.phase <;> decide

theorem cmdReady_iff : cmdReady r = true ↔ r.phase = .idle := by
  rw [cmdReady, Bool.not_eq_true', busy_eq_false]

/-- R32's level in numbers: only in SEND, and there while `N < NH(b)`. -/
theorem dout_eq (c : Config) (r : CoreRegs) :
    dout c r = decide (r.phase = .send ∧ r.n < if framebit r.color r.j then c.n1h else c.n0h) := by
  cases hp : r.phase with
  | idle => simp [dout_idle c hp]
  | send => rw [dout_send c hp, slotLevel, Config.nh, beBit, decide_eq_decide, and_iff_right rfl]
  | latch => simp [dout_latch c hp]

/-! ## What a tick adds to the traces (R35, R132) -/

/-- FRAMES gains a frame on the gap's last tick only (R129). -/
theorem latchTick_frames (s : State) :
    (latchTick s).obs.frames =
      s.obs.frames ++ if s.regs.l < s.cfg.nReset - 1 then [] else [stripOf s.regs.color] := by
  obtain ⟨hl, h⟩ | ⟨hl, h⟩ := latchTick_cases s
  · rw [h, if_pos hl, List.append_nil, sampleWire_frames]
  · rw [h, if_neg hl]

/-- An accepted command adds the tick's low sample to the traces and nothing else (log 15). -/
theorem exec_command_idle_obs (hp : s.regs.phase = .idle) {i : Instr} (hi : i.isCommand = true)
    (he : exec i s = .next t) : t.obs = sampleWire false s.obs := by
  obtain ⟨r, g, b, -, rfl⟩ | ⟨hue, sat, val, -, -, rfl⟩ | ⟨-, -, rfl⟩ := exec_command_idle hp hi he
  · exact loadColor_obs _ s
  · exact loadColor_obs _ s
  · exact startFrame_obs s

/-- The traces after a tick without reset are those of the phase's own tick. -/
theorem step_obs_cases (hr : s.env.rst = false) (h : step s = .next t) :
    (s.regs.phase = .idle ∧ t.obs = sampleWire false s.obs) ∨
    (s.regs.phase = .send ∧ t.obs = (slotTick (beBit s.regs) s).obs) ∨
    (s.regs.phase = .latch ∧ t.obs = (latchTick s).obs) := by
  obtain ⟨hrst, -⟩ | ⟨-, hp, -, rfl⟩ | ⟨-, hp, w, i, u, -, hd, he, rfl⟩ | ⟨-, hp, rfl⟩ | ⟨-, hp, rfl⟩ := step_cases h
  · rw [hr] at hrst; cases hrst
  · exact .inl ⟨hp, rfl⟩
  · exact .inl ⟨hp, (hostMove_obs true u).trans (exec_command_idle_obs hp (decode_isCommand hd) he)⟩
  · exact .inr (.inl ⟨hp, rfl⟩)
  · exact .inr (.inr ⟨hp, rfl⟩)

theorem step_w (hr : s.env.rst = false) (h : step s = .next t) : t.obs.w = s.obs.w ++ [dout s.cfg s.regs] := by
  obtain ⟨hp, ho⟩ | ⟨hp, ho⟩ | ⟨hp, ho⟩ := step_obs_cases hr h
  · rw [ho, sampleWire_w, dout_idle s.cfg hp]
  · rw [ho, slotTick_w, dout_send s.cfg hp]
  · rw [ho, latchTick_w, dout_latch s.cfg hp]

theorem step_sigma (hr : s.env.rst = false) (h : step s = .next t) :
    t.obs.sigma = s.obs.sigma ++ if s.regs.phase = .send ∧ s.regs.n = 0 then [framebit s.regs.color s.regs.j] else [] := by
  obtain ⟨hp, ho⟩ | ⟨hp, ho⟩ | ⟨hp, ho⟩ := step_obs_cases hr h
  · simp [ho, hp]
  · by_cases hn : s.regs.n = 0 <;> simp [ho, hp, hn, beBit]
  · simp [ho, hp]

theorem step_frames (hr : s.env.rst = false) (h : step s = .next t) :
    t.obs.frames = s.obs.frames ++
      if s.regs.phase = .latch ∧ ¬ s.regs.l < s.cfg.nReset - 1 then [stripOf s.regs.color] else [] := by
  obtain ⟨hp, ho⟩ | ⟨hp, ho⟩ | ⟨hp, ho⟩ := step_obs_cases hr h
  · simp [ho, hp]
  · simp [ho, hp]
  · by_cases hl : s.regs.l < s.cfg.nReset - 1 <;> simp [ho, hp, hl, latchTick_frames]

/-! ## The host and SHOWN on a reset tick (R37, R252) -/

@[simp] theorem benchMove_lastHue (a : Bool) (agenda : List Offer) (e : Env) :
    (benchMove a agenda e).lastHue = e.lastHue := by
  unfold benchMove
  split <;> rfl

@[simp] theorem benchMove_loopState (a : Bool) (agenda : List Offer) (e : Env) :
    (benchMove a agenda e).loopState = e.loopState := by
  unfold benchMove
  split <;> rfl

theorem resetEnv_lastHue (c : Config) (e : Env) : (resetEnv c e).lastHue = c.hueSentinel := by
  cases h : e.driver <;> simp [resetEnv, h]

theorem resetEnv_loopState (c : Config) (e : Env) : (resetEnv c e).loopState = .idle := by
  cases h : e.driver <;> simp [resetEnv, h]

theorem shownAfterReset_idle (h : r.phase = .idle) : shownAfterReset r = .nothingYet := by
  rw [shownAfterReset, busy_eq_false.mpr h]; rfl

theorem shownAfterReset_busy (h : r.phase ≠ .idle) : shownAfterReset r = .unspecified := by
  rw [shownAfterReset, busy_eq_true.mpr h]; rfl

/-! ## The step with the traces forgotten (R34, R35) -/

/-- The state with other traces and another SHOWN. -/
def State.withTraces (s : State) (o : Traces) (x : Shown) : State := { s with obs := o, shown := x }

/-- The part of the state a step may read: traces and SHOWN replaced by fixed ones. -/
def forgetTraces (s : State) : State := s.withTraces Traces.empty .nothingYet

theorem forgetTraces_eq_iff : forgetTraces s = forgetTraces t ↔ s.cfg = t.cfg ∧ s.regs = t.regs ∧ s.env = t.env := by
  simp [forgetTraces, State.withTraces]

theorem andThen_andThen (o : Out) (f g : State → State) : andThen (andThen o f) g = andThen o (g ∘ f) := by
  cases o <;> rfl

theorem andThen_eq_refused {o : Out} {f : State → State} {q : Refusal} : andThen o f = .refused q ↔ o = .refused q := by
  cases o <;> simp [andThen]

theorem forgetTraces_hostMove (a : Bool) (s : State) : forgetTraces (hostMove a s) = hostMove a (forgetTraces s) := rfl

theorem forgetTraces_latchTick (s : State) (o : Traces) (x : Shown) :
    forgetTraces (latchTick (s.withTraces o x)) = forgetTraces (latchTick s) := by
  by_cases h : s.regs.l < s.cfg.nReset - 1
  · simp [latchTick, State.withTraces, forgetTraces, h]
  · simp [latchTick, State.withTraces, forgetTraces, h]

theorem forgetTraces_sequencerTick (s : State) (o : Traces) (x : Shown) :
    forgetTraces (sequencerTick (s.withTraces o x)) = forgetTraces (sequencerTick s) := by
  cases hp : s.regs.phase with
  | idle => rw [sequencerTick_idle hp, sequencerTick_idle (s := s.withTraces o x) hp]; rfl
  | send => rw [sequencerTick_send hp, sequencerTick_send (s := s.withTraces o x) hp]; rfl
  | latch =>
    rw [sequencerTick_latch hp, sequencerTick_latch (s := s.withTraces o x) hp]
    exact forgetTraces_latchTick s o x

/-- A command's tick reads no trace if its effect in IDLE reads none. -/
theorem forgetTraces_acceptCommand (s : State) (o : Traces) (x : Shown) {f : State → Out}
    (hf : andThen (f (s.withTraces o x)) forgetTraces = andThen (f s) forgetTraces) :
    andThen (acceptCommand (s.withTraces o x) f) forgetTraces = andThen (acceptCommand s f) forgetTraces := by
  by_cases hp : s.regs.phase = .idle
  · rw [acceptCommand_idle hp, acceptCommand_idle (s := s.withTraces o x) hp, hf]
  · rw [acceptCommand_busy hp, acceptCommand_busy (s := s.withTraces o x) hp, andThen_next, andThen_next,
      forgetTraces_sequencerTick]

theorem forgetTraces_emitTick (b : Bit) (s : State) (o : Traces) (x : Shown) :
    andThen (emitTick b (s.withTraces o x)) forgetTraces = andThen (emitTick b s) forgetTraces := by
  cases hp : s.regs.phase <;> simp [emitTick, State.withTraces, hp, forgetTraces, slotTick]

theorem forgetTraces_exec (i : Instr) (s : State) (o : Traces) (x : Shown) :
    andThen (exec i (s.withTraces o x)) forgetTraces = andThen (exec i s) forgetTraces := by
  cases i with
  | setrgb r g b =>
    simp only [exec, execSetrgb]
    exact forgetTraces_acceptCommand s o x rfl
  | hsv2rgb hue sat val =>
    simp only [exec, execHsv2rgb]
    refine forgetTraces_acceptCommand s o x ?_
    cases hsvInDomain hue sat val <;> rfl
  | write =>
    simp only [exec, execWrite]
    refine forgetTraces_acceptCommand s o x ?_
    cases hv : s.regs.colorValid <;> simp [State.withTraces, hv, forgetTraces, startFrame]
  | emit0 => exact forgetTraces_emitTick false s o x
  | emit1 => exact forgetTraces_emitTick true s o x

/-- The step reads neither the traces nor SHOWN: what is left when they are forgotten does not depend on them. -/
theorem forgetTraces_step (s : State) (o : Traces) (x : Shown) :
    andThen (step (s.withTraces o x)) forgetTraces = andThen (step s) forgetTraces := by
  have hfetch : fetch (s.withTraces o x) = fetch s := rfl
  unfold step
  rw [hfetch]
  cases fetch s with
  | reset => rfl
  | quiet => simp only [andThen_next, forgetTraces_hostMove, forgetTraces_sequencerTick]
  | run i accepted =>
    have hcomm : forgetTraces ∘ hostMove accepted = hostMove accepted ∘ forgetTraces := rfl
    simp only [andThen_andThen, hcomm]
    rw [← andThen_andThen, ← andThen_andThen, forgetTraces_exec]
  | reserved e => rfl

/-! ## R38's invariant, tick by tick -/

theorem bitsPerPixel_eq : bitsPerPixel = 24 := rfl

theorem numLeds_eq : numLeds = 60 := rfl

theorem numLeds_pos : 0 < numLeds := by decide

theorem bitsPerPixel_pos : 0 < bitsPerPixel := by decide

theorem two_lt_nBit (h : c.Valid) : 2 < c.nBit := by
  obtain ⟨h0, h01, h1, -⟩ := h
  omega

theorem nReset_pos (h : c.Valid) : 0 < c.nReset := by
  obtain ⟨-, -, -, hgap, -⟩ := h
  refine Nat.pos_of_ne_zero fun h0 => ?_
  rw [h0, Nat.zero_mul] at hgap
  exact absurd hgap (by decide)

/-- The registers of R37 meet the invariant, whatever COLOR holds. -/
theorem regsInv_reset (hc : c.Valid) (p : Pixel) : RegsInv c { CoreRegs.reset with color := p } where
  k_lt := numLeds_pos
  j_lt := bitsPerPixel_pos
  n_lt := Nat.zero_lt_of_lt (two_lt_nBit hc)
  l_lt := nReset_pos hc
  send_only _ := ⟨rfl, rfl, rfl⟩
  latch_only _ := rfl
  hf_iff := iff_of_false Bool.false_ne_true nofun
  busy_valid h := absurd rfl h

theorem regsInv_loadColor (h : RegsInv c r) (p : Pixel) : RegsInv c { r with color := p, colorValid := true } :=
  { h with busy_valid := fun _ => rfl }

theorem regsInv_startFrame (h : RegsInv c r) (hp : r.phase = .idle) (hv : r.colorValid = true) :
    RegsInv c { r with phase := .send, k := 0, j := 0, n := 0, hf := true } where
  k_lt := numLeds_pos
  j_lt := bitsPerPixel_pos
  n_lt := Nat.zero_lt_of_lt h.n_lt
  l_lt := h.l_lt
  send_only hns := absurd rfl hns
  latch_only _ := h.latch_only (by rw [hp]; decide)
  hf_iff := iff_of_true rfl rfl
  busy_valid _ := hv

/-- A tick of SEND keeps the ranges, and leaves SEND with K, J, N, L at 0 and HF fallen (R130). -/
theorem regsInv_advance (h : RegsInv c r) (hp : r.phase = .send) : RegsInv c (advance c r) := by
  obtain ⟨h1, he⟩ | ⟨-, h2, he⟩ | ⟨-, -, h3, he⟩ | ⟨-, -, -, he⟩ := advance_cases c r <;> rw [he]
  case inl => exact { h with n_lt := Nat.add_lt_of_lt_sub h1, send_only := fun hns => absurd hp hns }
  case inr.inl =>
    exact { h with
      j_lt := Nat.succ_lt_succ h2, n_lt := Nat.zero_lt_of_lt h.n_lt, send_only := fun hns => absurd hp hns }
  case inr.inr.inl =>
    exact { h with
      k_lt := Nat.succ_lt_succ h3, j_lt := bitsPerPixel_pos, n_lt := Nat.zero_lt_of_lt h.n_lt
      send_only := fun hns => absurd hp hns }
  case inr.inr.inr =>
    exact {
      k_lt := numLeds_pos, j_lt := bitsPerPixel_pos, n_lt := Nat.zero_lt_of_lt h.n_lt, l_lt := Nat.zero_lt_of_lt h.l_lt
      send_only := fun _ => ⟨rfl, rfl, rfl⟩, latch_only := fun _ => rfl
      hf_iff := iff_of_false Bool.false_ne_true nofun, busy_valid := fun _ => h.busy_valid (by rw [hp]; decide) }

/-- A tick of SEND starts a slot exactly where it is a slot's first tick (R35, R110): inside a slot the count goes with N, and
at a slot's last tick, which is not its first, the position takes over what N counted. -/
theorem slotsInFrame_advance (hc : c.Valid) (h : RegsInv c r) (hp : r.phase = .send) :
    slotsInFrame (advance c r) = slotsInFrame r + if r.n = 0 then 1 else 0 := by
  have hk : r.k < 60 := h.k_lt
  have hj : r.j < 24 := h.j_lt
  have hlast : ¬ r.n < c.nBit - 1 → r.n ≠ 0 := by
    have := two_lt_nBit hc
    omega
  obtain ⟨-, he⟩ | ⟨h1, -, he⟩ | ⟨h1, h2, -, he⟩ | ⟨h1, h2, h3, he⟩ := advance_cases c r <;>
    simp only [he, slotsInFrame, hp, bitsPerPixel_eq, numLeds_eq]
  case inl => by_cases hn : r.n = 0 <;> simp [hn]
  all_goals
    simp only [if_neg (hlast h1), if_true]
    omega

/-- The invariant is about the parameters, the core and the traces: the host's move keeps it. -/
theorem inv_hostMove (a : Bool) (h : Inv s) : Inv (hostMove a s) := ⟨h.cfg_valid, h.regs_inv, h.sigma_length⟩

theorem inv_of_reset {p : Pixel} (hc : s.cfg.Valid) (hr : s.regs = { CoreRegs.reset with color := p })
    (ho : s.obs = Traces.empty) : Inv s where
  cfg_valid := hc
  regs_inv := hr ▸ regsInv_reset hc p
  sigma_length := by rw [startedSlots, hr, ho]; rfl

theorem inv_resetTick (h : Inv s) : Inv (resetTick s) := inv_of_reset h.cfg_valid (resetTick_regs s) (resetTick_obs s)

theorem inv_idleTick (h : Inv s) : Inv (idleTick s) := ⟨h.cfg_valid, h.regs_inv, h.sigma_length⟩

theorem inv_loadColor (h : Inv s) (p : Pixel) : Inv (loadColor p s) :=
  ⟨h.cfg_valid, regsInv_loadColor h.regs_inv p, h.sigma_length⟩

theorem inv_startFrame (h : Inv s) (hp : s.regs.phase = .idle) (hv : s.regs.colorValid = true) : Inv (startFrame s) where
  cfg_valid := h.cfg_valid
  regs_inv := regsInv_startFrame h.regs_inv hp hv
  sigma_length := by
    have hs := h.sigma_length
    simp only [startedSlots, slotsInFrame, hp] at hs
    simpa [startedSlots, slotsInFrame] using hs

theorem inv_exec_command_idle (h : Inv s) (hp : s.regs.phase = .idle) {i : Instr} (hi : i.isCommand = true)
    (he : exec i s = .next t) : Inv t := by
  obtain ⟨r, g, b, -, rfl⟩ | ⟨hue, sat, val, -, -, rfl⟩ | ⟨-, hv, rfl⟩ := exec_command_idle hp hi he
  · exact inv_loadColor h _
  · exact inv_loadColor h _
  · exact inv_startFrame h hp hv

theorem inv_slotTick (h : Inv s) (hp : s.regs.phase = .send) (b : Bit) : Inv (slotTick b s) where
  cfg_valid := h.cfg_valid
  regs_inv := regsInv_advance h.regs_inv hp
  sigma_length := by
    have hs := h.sigma_length
    have ha := slotsInFrame_advance h.cfg_valid h.regs_inv hp
    rw [startedSlots] at hs ⊢
    rw [slotTick_sigma, slotTick_frames, slotTick_regs, ha]
    split
    · rw [List.length_append, hs, List.length_singleton, Nat.add_assoc]
    · exact hs

theorem inv_latchTick (h : Inv s) (hp : s.regs.phase = .latch) : Inv (latchTick s) := by
  obtain ⟨hc, hr, hs⟩ := h
  simp only [startedSlots, slotsInFrame, hp] at hs
  obtain ⟨hl, he⟩ | ⟨-, he⟩ := latchTick_cases s <;> rw [he] <;> refine ⟨hc, ?_, ?_⟩
  · exact { hr with l_lt := Nat.add_lt_of_lt_sub hl, latch_only := fun hnl => absurd hp hnl }
  · simpa [startedSlots, slotsInFrame, hp] using hs
  · have hhf : s.regs.hf ≠ true := by rw [Ne, hr.hf_iff, hp]; decide
    exact { hr with
      l_lt := Nat.zero_lt_of_lt hr.l_lt, send_only := fun _ => hr.send_only (by rw [hp]; decide), latch_only := fun _ => rfl
      hf_iff := iff_of_false hhf nofun, busy_valid := fun hni => absurd rfl hni }
  · simpa [startedSlots, slotsInFrame, Nat.mul_add] using hs

/-- R38's invariant is kept by every tick. -/
theorem inv_step (h : Inv s) (hstep : step s = .next t) : Inv t := by
  obtain ⟨-, rfl⟩ | ⟨-, -, -, rfl⟩ | ⟨-, hp, w, i, u, -, hd, he, rfl⟩ | ⟨-, hp, rfl⟩ | ⟨-, hp, rfl⟩ := step_cases hstep
  · exact inv_resetTick h
  · exact inv_hostMove false (inv_idleTick h)
  · exact inv_hostMove true (inv_exec_command_idle h hp (decode_isCommand hd) he)
  · exact inv_hostMove false (inv_slotTick h hp _)
  · exact inv_hostMove false (inv_latchTick h hp)

/-- Between frames SIGMA holds whole pixel-frames (R38). -/
theorem sigma_length_mod (h : Inv s) (hp : s.regs.phase ≠ .send) : s.obs.sigma.length % 24 = 0 := by
  rw [h.sigma_length, startedSlots, bitsPerPixel_eq, numLeds_eq]
  cases hph : s.regs.phase with
  | idle => simp only [slotsInFrame, hph]; omega
  | send => exact absurd hph hp
  | latch => simp only [slotsInFrame, hph, bitsPerPixel_eq, numLeds_eq]; omega

theorem step_w_length (h : step s = .next t) : t.obs.w.length = if s.env.rst then 0 else s.obs.w.length + 1 := by
  cases hr : s.env.rst with
  | true =>
    rw [step_reset hr] at h
    cases h; rfl
  | false => rw [step_w hr h, List.length_append]; rfl

end Sys2Proof.Machine
end

section
/-! PROOFS. The state's statements: R38's invariant (O27, O28), who writes COLOR (O17), the traces (O21, O22), commands while
busy (O13), reset (O25, O26, O50) and the output ports (O51). -/

namespace Sys2Proof.Machine

/-- Settles O27: each kind of tick keeps the invariant (`inv_step`), which says how long SIGMA is. -/
theorem stepKeepsInvariant : Obligations.StepKeepsInvariant := by
  intro s t hinv hstep
  have ht : Inv t := inv_step hinv hstep
  exact ⟨ht, step_w_length hstep, sigma_length_mod ht⟩

/-- Settles O17: of the ticks without reset only the two loads write COLOR or COLOR_VALID. -/
theorem colorWrittenOnlyByLoads : Obligations.ColorWrittenOnlyByLoads := by
  intro s t hstep hchange
  obtain ⟨hr, -⟩ | ⟨-, -, -, rfl⟩ | ⟨-, hp, w, i, u, ho, hd, he, rfl⟩ | ⟨-, -, rfl⟩ | ⟨-, -, rfl⟩ := step_cases hstep
  · exact .inl hr
  · simp at hchange
  · obtain ⟨r, g, b, rfl, -⟩ | ⟨hue, sat, val, rfl, -, -⟩ | ⟨-, -, rfl⟩ := exec_command_idle hp (decode_isCommand hd) he
    · exact .inr ⟨hp, w, ho, .inl ⟨r, g, b, hd⟩⟩
    · exact .inr ⟨hp, w, ho, .inr ⟨hue, sat, val, hd⟩⟩
    · simp at hchange
  · simp at hchange
  · simp at hchange

/-- Settles O21: each trace by its own lemma about the step, `dout` by R32. -/
theorem tracesRecordEachTick : Obligations.TracesRecordEachTick := fun s _ hr hstep =>
  ⟨step_w hr hstep, dout_eq s.cfg s.regs, step_sigma hr hstep, step_frames hr hstep⟩

/-- Settles O22: with the traces forgotten the two steps answer the same, so one has a next state, or is refused, where the
other is. -/
theorem tracesNeverRead : Obligations.TracesNeverRead := by
  intro s o x
  have hstep := forgetTraces_step s o x
  constructor
  · intro t ht
    rw [ht, andThen_next] at hstep
    obtain ⟨u, hu, htu⟩ := andThen_eq_next.mp hstep
    obtain ⟨hcfg, hregs, henv⟩ := forgetTraces_eq_iff.mp htu
    exact ⟨u, hu, hcfg.symm, hregs.symm, henv.symm⟩
  · intro q hq
    rw [hq, andThen_refused] at hstep
    exact andThen_eq_refused.mp hstep

/-- Settles O13: a command offered while busy is the sequencer's own tick (`exec_command_busy`), in SEND the tick of the bit
`be_bit` requests, in LATCH the gap's. -/
theorem commandWhileBusyIsIgnored : Obligations.CommandWhileBusyIsIgnored := by
  intro i s hi
  constructor
  · intro hp
    rw [exec_command_busy (by rw [hp]; decide) hi, sequencerTick_send hp, ← emitTick_send hp, ← exec_decodeRequest]
    rfl
  · intro hp
    rw [exec_command_busy (by rw [hp]; decide) hi, sequencerTick_latch hp]
    rfl

/-- Settles O25: the step is `resetTick`, which empties the traces and starts the host over. -/
theorem resetTickBeyondTheCore : Obligations.ResetTickBeyondTheCore := by
  intro s hr
  exact ⟨resetTick s, step_reset hr, rfl, rfl, rfl, shownAfterReset_idle, shownAfterReset_busy, resetEnv_lastHue _ _,
    resetEnv_loopState _ _⟩

/-- Settles O26: State.reset is a literal, read off field by field; the two ports follow from PHASE. -/
theorem resetStateHoldsTheTable : Obligations.ResetStateHoldsTheTable := by
  have hp : State.reset.regs.phase = .idle := rfl
  exact ⟨rfl, hp, rfl, rfl, rfl, rfl, rfl, dout_idle _ hp, cmdReady_iff.mpr hp, rfl, rfl, rfl, rfl, rfl, rfl⟩

/-- Settles O28: R9's defaults are valid, and R37's registers with empty traces meet the invariant. -/
theorem resetMeetsInvariant : Obligations.ResetMeetsInvariant :=
  ⟨inv_of_reset (p := CoreRegs.reset.color) (by decide) rfl rfl, rfl⟩

/-- Settles O50: the ADC is a legal sensor, and Idle asks for a quiet port and an idle core. -/
theorem resetMeetsLoopDiscipline : Obligations.ResetMeetsLoopDiscipline := ⟨trivial, rfl, rfl⟩

/-- Settles O51: each port from PHASE; `dout` by the bit being sent. -/
theorem outputPortsFollowState : Obligations.OutputPortsFollowState := by
  intro c r
  refine ⟨busy_iff, cmdReady_iff, rfl, fun h => h.hf_iff, ?_⟩
  rw [dout_eq, decide_eq_true_iff]
  cases framebit r.color r.j <;> simp

end Sys2Proof.Machine
end

section
/-! PROOFS. The memory file's statement (R57): what an accepted command leaves unchanged (O14). -/

namespace Sys2Proof.Machine

variable {s t : State}

/-- Of the three commands an idle core runs, the two loads differ only in the colour they load (R121, R161). -/
theorem exec_command_idle_load_or_write (hp : s.regs.phase = .idle) {i : Instr} (hi : i.isCommand = true)
    (he : exec i s = .next t) : (i ≠ .write ∧ ∃ p, t = loadColor p s) ∨ (i = .write ∧ t = startFrame s) := by
  obtain ⟨r, g, b, rfl, ht⟩ | ⟨hue, sat, val, rfl, -, ht⟩ | ⟨hw, -, ht⟩ := exec_command_idle hp hi he
  · exact .inl ⟨nofun, _, ht⟩
  · exact .inl ⟨nofun, _, ht⟩
  · exact .inr ⟨hw, ht⟩

/-- Settles O14: a load is `loadColor`, which writes COLOR and COLOR_VALID beside the wire's sample; WRITE is `startFrame`,
which writes PHASE, the position and HF beside it. -/
theorem commandFrame : Obligations.CommandFrame := by
  intro i s t hp hi he
  obtain ⟨hload, p, rfl⟩ | ⟨rfl, rfl⟩ := exec_command_idle_load_or_write hp hi he
  · simp [hload]
  · simp

end Sys2Proof.Machine
end

section
/-! PROOFS. Support for the encoding's statements: a masked match read as fields, the decoder row by row, a word rebuilt from its
fields, the step by what it decodes (R84 to R89, R132). -/

namespace Sys2Proof.Machine

variable {s t : State} {w : Word} {i : Instr}

/-! ## The rows of R86 as fields of R85 -/

/-- Two words of the same format are equal exactly when both of their parts are. -/
theorem bitVec_append_eq_append_iff {m n : Nat} {a b : BitVec m} {x y : BitVec n} : a ++ x = b ++ y ↔ a = b ∧ x = y := by
  constructor
  · intro h
    have hl := congrArg (BitVec.extractLsb' n m) h
    have hr := congrArg (BitVec.extractLsb' 0 n) h
    rw [BitVec.extractLsb'_append_eq_left, BitVec.extractLsb'_append_eq_left] at hl
    rw [BitVec.extractLsb'_append_eq_right, BitVec.extractLsb'_append_eq_right] at hr
    exact ⟨hl, hr⟩
  · rintro ⟨rfl, rfl⟩
    rfl

/-- A mask over the top field and the zero bits below it matches exactly when the field has the match's value and the zero bits
are clear, whatever the operand bits are (R84, R86). -/
theorem and_mask_eq_iff {o z n : Nat} (w : BitVec (o + z + n)) (op : BitVec o) :
    w &&& (BitVec.allOnes o ++ BitVec.allOnes z ++ 0#n) = op ++ 0#z ++ 0#n ↔
      w.extractLsb' (n + z) o = op ∧ w.extractLsb' n z = 0#z := by
  have htop : w.extractLsb' (n + z) o ++ w.extractLsb' n z = w.extractLsb' n (o + z) :=
    BitVec.extractLsb'_append_extractLsb'_eq_extractLsb' rfl
  have hw : w = w.extractLsb' (n + z) o ++ w.extractLsb' n z ++ w.extractLsb' 0 n := by
    rw [htop, BitVec.extractLsb'_append_extractLsb']
  conv_lhs => rw [hw]
  rw [BitVec.and_append, BitVec.and_append, BitVec.and_allOnes, BitVec.and_allOnes, BitVec.and_zero, BitVec.append_left_inj,
    bitVec_append_eq_append_iff]

/-- SETRGB's row: `op` = 00 and format C's six zero bits clear. -/
theorem setrgbRow_iff : w &&& 0xFF000000#32 = 0x00000000#32 ↔ fieldOp w = 0b00#2 ∧ w.extractLsb' 24 6 = 0#6 :=
  and_mask_eq_iff (o := 2) (z := 6) (n := 24) w 0b00#2

/-- HSV2RGB's row: `op` = 01 and format H's seven zero bits clear. -/
theorem hsv2rgbRow_iff : w &&& 0xFF800000#32 = 0x40000000#32 ↔ fieldOp w = 0b01#2 ∧ w.extractLsb' 23 7 = 0#7 :=
  and_mask_eq_iff (o := 2) (z := 7) (n := 23) w 0b01#2

/-- WRITE's row: `op` = 10 and format N's thirty zero bits clear. -/
theorem writeRow_iff : w &&& 0xFFFFFFFF#32 = 0x80000000#32 ↔ fieldOp w = 0b10#2 ∧ w.extractLsb' 0 30 = 0#30 :=
  and_mask_eq_iff (o := 2) (z := 30) (n := 0) w 0b10#2

/-- WRITE's mask covers the whole word, so its row holds one word. -/
theorem writeRow_iff_eq : w &&& 0xFFFFFFFF#32 = 0x80000000#32 ↔ w = 0x80000000#32 := by
  rw [show 0xFFFFFFFF#32 = BitVec.allOnes 32 from rfl, BitVec.and_allOnes]

/-- A word has one `op`, and the rows differ in it. -/
theorem not_two_ops {a b : BitVec 2} {p q : Prop} (hab : a ≠ b) : ¬ ((fieldOp w = a ∧ p) ∧ fieldOp w = b ∧ q) :=
  fun ⟨⟨ha, _⟩, hb, _⟩ => hab (ha.symm.trans hb)

/-! ## The decoder, row by row -/

theorem decode_setrgbRow (h : w &&& 0xFF000000#32 = 0x00000000#32) :
    decode w = .ok (.setrgb (fieldR w) (fieldG w) (fieldB w)) := if_pos h

theorem decode_hsv2rgbRow (h : w &&& 0xFF800000#32 = 0x40000000#32) :
    decode w = .ok (.hsv2rgb (fieldH w) (fieldS w) (fieldV w)) := by
  have hnot : ¬ w &&& 0xFF000000#32 = 0x00000000#32 := fun hrgb =>
    not_two_ops (by decide) ⟨setrgbRow_iff.mp hrgb, hsv2rgbRow_iff.mp h⟩
  rw [decode, if_neg hnot, if_pos h]

theorem decode_writeRow (h : w &&& 0xFFFFFFFF#32 = 0x80000000#32) : decode w = .ok .write := by
  rw [writeRow_iff_eq.mp h]
  decide

/-- A word that decodes matches one of the three rows, and decodes to that row's command with the fields as operands (R86). -/
theorem decode_ok_cases (h : decode w = .ok i) :
    (w &&& 0xFF000000#32 = 0x00000000#32 ∧ i = .setrgb (fieldR w) (fieldG w) (fieldB w)) ∨
    (w &&& 0xFF800000#32 = 0x40000000#32 ∧ i = .hsv2rgb (fieldH w) (fieldS w) (fieldV w)) ∨
    (w &&& 0xFFFFFFFF#32 = 0x80000000#32 ∧ i = .write) := by
  unfold decode at h
  split at h
  case isTrue hrow => cases h; exact .inl ⟨hrow, rfl⟩
  split at h
  case isTrue hrow => cases h; exact .inr (.inl ⟨hrow, rfl⟩)
  split at h
  case isTrue hrow => cases h; exact .inr (.inr ⟨writeRow_iff_eq.mpr hrow, rfl⟩)
  split at h <;> cases h

/-- A word with the reserved `op`, or with a zero bit of its format set, is rejected (R87). -/
theorem decode_error_of_reserved
    (h : fieldOp w = 0b11#2 ∨ (fieldOp w = 0b00#2 ∧ w.extractLsb' 24 6 ≠ 0#6) ∨
      (fieldOp w = 0b01#2 ∧ w.extractLsb' 23 7 ≠ 0#7) ∨ (fieldOp w = 0b10#2 ∧ w.extractLsb' 0 30 ≠ 0#30)) :
    ∃ e, decode w = .error e := by
  cases hd : decode w with
  | error e => exact ⟨e, rfl⟩
  | ok i =>
    obtain ⟨hrow, -⟩ | ⟨hrow, -⟩ | ⟨hrow, -⟩ := decode_ok_cases hd
    · simp [setrgbRow_iff.mp hrow] at h
    · simp [hsv2rgbRow_iff.mp hrow] at h
    · simp [writeRow_iff.mp hrow] at h

/-! ## Words and their fields -/

/-- The fields of format C, put side by side, are the word (R84). -/
theorem formatC_fields (w : Word) : fieldOp w ++ w.extractLsb' 24 6 ++ fieldR w ++ fieldG w ++ fieldB w = w := by
  unfold fieldOp fieldR fieldG fieldB
  rw [BitVec.extractLsb'_append_extractLsb'_eq_extractLsb' (rfl : 30 = 24 + 6),
    BitVec.extractLsb'_append_extractLsb'_eq_extractLsb' (rfl : 24 = 16 + 8),
    BitVec.extractLsb'_append_extractLsb'_eq_extractLsb' (rfl : 16 = 8 + 8),
    BitVec.extractLsb'_append_extractLsb'_eq_extractLsb' (rfl : 8 = 0 + 8)]
  exact BitVec.extractLsb'_eq_self

/-- The fields of format H, put side by side, are the word (R84). -/
theorem formatH_fields (w : Word) : fieldOp w ++ w.extractLsb' 23 7 ++ fieldH w ++ fieldS w ++ fieldV w = w := by
  unfold fieldOp fieldH fieldS fieldV
  rw [BitVec.extractLsb'_append_extractLsb'_eq_extractLsb' (rfl : 30 = 23 + 7),
    BitVec.extractLsb'_append_extractLsb'_eq_extractLsb' (rfl : 23 = 14 + 9),
    BitVec.extractLsb'_append_extractLsb'_eq_extractLsb' (rfl : 14 = 7 + 7),
    BitVec.extractLsb'_append_extractLsb'_eq_extractLsb' (rfl : 7 = 0 + 7)]
  exact BitVec.extractLsb'_eq_self

/-- The fields of SETRGB's encoding are its operands. -/
theorem fields_encodeRgb (r g b : BitVec 8) :
    fieldR (encodeRgb r g b) = r ∧ fieldG (encodeRgb r g b) = g ∧ fieldB (encodeRgb r g b) = b := by
  obtain ⟨hrg, hb⟩ := bitVec_append_eq_append_iff.mp (formatC_fields (encodeRgb r g b))
  obtain ⟨hr, hg⟩ := bitVec_append_eq_append_iff.mp hrg
  exact ⟨(bitVec_append_eq_append_iff.mp hr).2, hg, hb⟩

/-- The fields of HSV2RGB's encoding are its operands. -/
theorem fields_encodeHsv (h : BitVec 9) (sat val : BitVec 7) :
    fieldH (encodeHsv h sat val) = h ∧ fieldS (encodeHsv h sat val) = sat ∧ fieldV (encodeHsv h sat val) = val := by
  obtain ⟨hhs, hv⟩ := bitVec_append_eq_append_iff.mp (formatH_fields (encodeHsv h sat val))
  obtain ⟨hh, hs⟩ := bitVec_append_eq_append_iff.mp hhs
  exact ⟨(bitVec_append_eq_append_iff.mp hh).2, hs, hv⟩

/-- A word of SETRGB's row is the encoding of its fields. -/
theorem encodeRgb_fields (h : w &&& 0xFF000000#32 = 0x00000000#32) : encodeRgb (fieldR w) (fieldG w) (fieldB w) = w := by
  obtain ⟨hop, hzero⟩ := setrgbRow_iff.mp h
  have hw := formatC_fields w
  rw [hop, hzero] at hw
  exact hw

/-- A word of HSV2RGB's row is the encoding of its fields. -/
theorem encodeHsv_fields (h : w &&& 0xFF800000#32 = 0x40000000#32) : encodeHsv (fieldH w) (fieldS w) (fieldV w) = w := by
  obtain ⟨hop, hzero⟩ := hsv2rgbRow_iff.mp h
  have hw := formatH_fields w
  rw [hop, hzero] at hw
  exact hw

/-! ## The step, by what it decodes -/

theorem step_command (hr : s.env.rst = false) (hp : s.regs.phase = .idle) (ho : cmdWord? s.env.offer = some w)
    (hd : decode w = .ok i) : step s = andThen (exec i s) (hostMove true) := by
  rw [step, fetch_idle hr hp, fetchCommand_run ho hd]

theorem step_reserved (hr : s.env.rst = false) (hp : s.regs.phase = .idle) (ho : cmdWord? s.env.offer = some w)
    {e : DecodeError} (hd : decode w = .error e) : step s = .refused .reservedCommand := by
  rw [step, fetch_idle hr hp, fetchCommand_reserved ho hd]

theorem step_request (hr : s.env.rst = false) (hp : s.regs.phase = .send) :
    step s = andThen (exec (decodeRequest (beBit s.regs)) s) (hostMove false) := by
  rw [step, fetch_send hr hp]

/-- HSV2RGB with an operand outside its domain, on an idle core (R168). -/
theorem exec_hsv2rgb_outOfDomain (hp : s.regs.phase = .idle) {hue : BitVec 9} {sat val : BitVec 7}
    (hdom : 360 ≤ hue.toNat ∨ 101 ≤ sat.toNat ∨ 101 ≤ val.toNat) :
    exec (.hsv2rgb hue sat val) s = .refused .operandOutOfDomain := by
  rw [exec, execHsv2rgb_idle hp, hsvInDomain_eq_false.mpr hdom]
  rfl

/-- A command taken in IDLE leaves the surroundings to the host's move (R132). -/
theorem exec_command_idle_env (hp : s.regs.phase = .idle) (hi : i.isCommand = true) (he : exec i s = .next t) :
    t.env = s.env := by
  obtain ⟨r, g, b, -, rfl⟩ | ⟨hue, sat, val, -, -, rfl⟩ | ⟨-, -, rfl⟩ := exec_command_idle hp hi he
  · exact loadColor_env _ s
  · exact loadColor_env _ s
  · exact startFrame_env s

/-- A tick of the gap in numbers: 60 copies of COLOR are the frame that ends with it (R74, R129). -/
theorem latchTick_eq (s : State) :
    latchTick s =
      if s.regs.l < s.cfg.nReset - 1 then
        { s with obs := { s.obs with w := s.obs.w ++ [false] }, regs := { s.regs with l := s.regs.l + 1 } }
      else
        { s with
          obs := { s.obs with w := s.obs.w ++ [false], frames := s.obs.frames ++ [List.replicate 60 s.regs.color] }
          regs := { s.regs with l := 0, phase := .idle }
          shown := .strip (List.replicate 60 s.regs.color) } := rfl

end Sys2Proof.Machine
end

section
/-! PROOFS. Support for the wire's statements: runs of levels, one slot read back, and the frame's bits (R71, R73 to R78). -/

namespace Sys2Proof.Machine

variable {c : Config}

/-! ## Runs of levels (R78) -/

/-- A list of levels begins with a run of its first level. -/
theorem runsOf_head?_level (xs : List Level) : (runsOf xs).head?.map Run.level = xs.head? := by
  cases xs with
  | nil => rfl
  | cons x xs =>
    rw [runsOf]
    cases runsOf xs with
    | nil => rfl
    | cons r rest => by_cases hx : r.level = x <;> simp [pushRun, hx]

/-- A level in front of another level, or of nothing, begins a run of its own. -/
theorem runsOf_cons_of_head?_ne {x : Level} {xs : List Level} (h : xs.head? ≠ some x) :
    runsOf (x :: xs) = { level := x, len := 1 } :: runsOf xs := by
  rw [← runsOf_head?_level] at h
  rw [runsOf]
  cases hr : runsOf xs with
  | nil => rfl
  | cons r rest =>
    rw [hr] at h
    exact if_neg fun hx => h (congrArg some hx)

/-- Equal levels in front of another level, or of nothing, are one run. -/
theorem runsOf_replicate_append {x : Level} {xs : List Level} (h : xs.head? ≠ some x) (n : Nat) :
    runsOf (List.replicate (n + 1) x ++ xs) = { level := x, len := n + 1 } :: runsOf xs := by
  induction n with
  | zero => exact runsOf_cons_of_head?_ne h
  | succ n ih =>
    rw [List.replicate_succ, List.cons_append, runsOf, ih]
    exact if_pos rfl

/-- A high part and a low part before the next slot, or before nothing, are a run each. -/
theorem runsOf_slot {high low : Nat} {xs : List Level} (hhigh : 0 < high) (hlow : 0 < low) (hxs : xs.head? ≠ some false) :
    runsOf (List.replicate high true ++ List.replicate low false ++ xs) =
      { level := true, len := high } :: { level := false, len := low } :: runsOf xs := by
  obtain ⟨m, rfl⟩ := Nat.exists_eq_add_one.mpr hhigh
  obtain ⟨n, rfl⟩ := Nat.exists_eq_add_one.mpr hlow
  rw [List.append_assoc, runsOf_replicate_append (by simp [List.replicate_succ]), runsOf_replicate_append hxs]

/-! ## Symbols (R71) -/

theorem nh_pos (hc : c.Valid) (b : Bit) : 0 < c.nh b := by
  obtain ⟨h0, h01, -⟩ := hc
  cases b with
  | false => exact h0
  | true => exact Nat.zero_lt_of_lt h01

theorem nl_pos (hc : c.Valid) (b : Bit) : 0 < c.nl b := by
  obtain ⟨-, h01, h1, -⟩ := hc
  cases b with
  | false => exact Nat.sub_pos_of_lt (h01.trans h1)
  | true => exact Nat.sub_pos_of_lt h1

/-- The longest low part is that of a 0 (R9). -/
theorem nl_le (hc : c.Valid) (b : Bit) : c.nl b ≤ c.nBit - c.n0h := by
  obtain ⟨-, h01, -⟩ := hc
  cases b with
  | false => exact le_rfl
  | true => exact Nat.sub_le_sub_left h01.le c.nBit

/-- A low part ends before the gap's length is reached, if a slot is no longer than the gap (R76, log 20). -/
theorem nl_lt_nReset (hc : c.Valid) (hgap : c.SlotBelowGap) (b : Bit) : c.nl b < c.nReset := by
  have hpos := nh_pos hc b
  have hslot := two_lt_nBit hc
  unfold Config.nl
  omega

@[simp] theorem wireOf_nil (c : Config) : wireOf c [] = [] := rfl

@[simp] theorem wireOf_cons (c : Config) (b : Bit) (bits : List Bit) : wireOf c (b :: bits) = sym c b ++ wireOf c bits := rfl

@[simp] theorem wireOf_append (c : Config) (bs bits : List Bit) : wireOf c (bs ++ bits) = wireOf c bs ++ wireOf c bits :=
  List.flatMap_append

/-- A slot begins high (R71). -/
theorem sym_append_head? (hc : c.Valid) (b : Bit) (xs : List Level) : (sym c b ++ xs).head? = some true := by
  obtain ⟨n, hn⟩ := Nat.exists_eq_add_one.mpr (nh_pos hc b)
  simp [sym, hn, List.replicate_succ]

/-- What slots begin is never a low run, if what follows them does not begin low. -/
theorem wireOf_append_head?_ne (hc : c.Valid) (bits : List Bit) {xs : List Level} (hxs : xs.head? ≠ some false) :
    (wireOf c bits ++ xs).head? ≠ some false := by
  cases bits with
  | nil => exact hxs
  | cons b bits =>
    rw [wireOf_cons, List.append_assoc, sym_append_head? hc]
    decide

theorem symbolOf_nh (hc : c.Valid) (b : Bit) {low : Nat} (hlow : c.nl b ≤ low) : symbolOf c (c.nh b) low = some b := by
  obtain ⟨-, h01, -⟩ := hc
  cases b with
  | false => exact if_pos ⟨rfl, hlow⟩
  | true => rw [symbolOf, if_neg fun h => absurd h.1 (Nat.ne_of_gt h01), if_pos ⟨rfl, hlow⟩]

/-! ## Reading slots back (R78) -/

/-- A symbol whose low part may be longer is read as its bit, and as the end of the frame too if the low part is as long as the
gap. -/
theorem readWire_slot (hc : c.Valid) (b : Bit) {low : Nat} (hlow : c.nl b ≤ low) {xs : List Level}
    (hxs : xs.head? ≠ some false) :
    readWire c (List.replicate (c.nh b) true ++ List.replicate low false ++ xs) =
      (readWire c xs).map fun ts => .bit b :: ((if c.nReset ≤ low then [.endOfFrame] else []) ++ ts) := by
  rw [readWire, runsOf_slot (nh_pos hc b) (Nat.lt_of_lt_of_le (nl_pos hc b) hlow) hxs, tokensOf, if_pos ⟨rfl, rfl⟩,
    symbolOf_nh hc b hlow, readWire]
  cases tokensOf c (runsOf xs) <;> rfl

/-- Slots with no gap among them are read as their bits, before what follows. -/
theorem readWire_wireOf_append (hc : c.Valid) (hgap : c.SlotBelowGap) (bits : List Bit) {xs : List Level}
    (hxs : xs.head? ≠ some false) :
    readWire c (wireOf c bits ++ xs) = (readWire c xs).map (bits.map WireToken.bit ++ ·) := by
  induction bits with
  | nil => simp
  | cons b bits ih =>
    rw [wireOf_cons, List.append_assoc, sym, readWire_slot hc b le_rfl (wireOf_append_head?_ne hc bits hxs), ih,
      if_neg (Nat.not_le.mpr (nl_lt_nReset hc hgap b)), Option.map_map]
    rfl

/-- The last symbol of a frame with the gap behind it. -/
theorem readWire_sym_gap (hc : c.Valid) (b : Bit) :
    readWire c (sym c b ++ List.replicate c.nReset false) = some [.bit b, .endOfFrame] := by
  have h := readWire_slot hc b (Nat.le_add_right (c.nl b) c.nReset) (xs := []) nofun
  rw [if_pos (Nat.le_add_left _ _), List.append_nil] at h
  rw [sym, List.append_assoc, List.replicate_append_replicate, h]
  rfl

/-- Any bits but none, with the gap behind their slots, are read as the bits and the end of the frame. -/
theorem readWire_wireOf_gap (hc : c.Valid) (hgap : c.SlotBelowGap) {bits : List Bit} (hne : bits ≠ []) :
    readWire c (wireOf c bits ++ List.replicate c.nReset false) = some (bits.map WireToken.bit ++ [.endOfFrame]) := by
  obtain ⟨init, b, rfl⟩ := (List.eq_nil_or_concat' bits).resolve_left hne
  have hhead : (sym c b ++ List.replicate c.nReset false).head? ≠ some false := by
    rw [sym_append_head? hc]
    decide
  rw [wireOf_append, List.append_assoc, wireOf_cons, wireOf_nil, List.append_nil, readWire_wireOf_append hc hgap init hhead,
    readWire_sym_gap hc b]
  simp

theorem framebits_ne_nil (color : Pixel) : framebits color ≠ [] := by
  simp [framebits, framebitsOf, stripOf, numLeds, pixbits, bitsPerPixel, channels, bitsPerChannel]

/-! ## The wire order of a Pixel (R73) -/

theorem framebit_green (p : Pixel) {j : Nat} (h : j / 8 = 0) : framebit p j = p.g.getLsbD (7 - j % 8) := by
  have hi : 23 - j - 8 - 8 = 7 - j % 8 := by omega
  rw [framebit, grb, BitVec.getLsbD_append, if_neg (by omega), BitVec.getLsbD_append, if_neg (by omega), hi]

theorem framebit_red (p : Pixel) {j : Nat} (h : j / 8 = 1) : framebit p j = p.r.getLsbD (7 - j % 8) := by
  have hi : 23 - j - 8 = 7 - j % 8 := by omega
  rw [framebit, grb, BitVec.getLsbD_append, if_neg (by omega), BitVec.getLsbD_append, if_pos (by omega), hi]

theorem framebit_blue (p : Pixel) {j : Nat} (h : j / 8 = 2) : framebit p j = p.b.getLsbD (7 - j % 8) := by
  have hi : 23 - j = 7 - j % 8 := by omega
  rw [framebit, grb, BitVec.getLsbD_append, if_pos (by omega), hi]

/-- The two multiplexers pick the channel by `div(j, 8)` and the bit in it by `j mod 8` (R124, R125). -/
theorem serialBit_eq (p : Pixel) (j : Nat) :
    serialBit p j = (if j / 8 = 0 then p.g.getLsbD (7 - j % 8)
      else if j / 8 = 1 then p.r.getLsbD (7 - j % 8) else p.b.getLsbD (7 - j % 8)) := by
  have hb : bitsPerChannel = 8 := rfl
  rw [serialBit, hb]
  match j / 8 with
  | 0 => rfl
  | 1 => rfl
  | n + 2 => rfl

/-- The wire order of R73 is the multiplexers' (R124, R125). -/
theorem framebit_eq_serialBit (p : Pixel) {j : Nat} (h : j < 24) : framebit p j = serialBit p j := by
  obtain hj | hj | hj : j / 8 = 0 ∨ j / 8 = 1 ∨ j / 8 = 2 := by omega
  · rw [framebit_green p hj, serialBit_eq, if_pos hj]
  · rw [framebit_red p hj, serialBit_eq, if_neg (by omega), if_pos hj]
  · rw [framebit_blue p hj, serialBit_eq, if_neg (by omega), if_neg (by omega)]

end Sys2Proof.Machine
end

section
/-! PROOFS. The encoding's statements: the round trips (O1, O2, O3), the rows (O4), refused words (O5), the step by what it
decodes (O18), and the wire's waveform (O31, O32) and order (O33). -/

namespace Sys2Proof.Machine

/-- Settles O2: an encoding matches its row (`Laws.TableRow`), so the row's command is decoded, and its fields are the operands
that were put side by side. -/
theorem decodeOfEncodeIsIdentity : Obligations.DecodeOfEncodeIsIdentity := by
  intro i
  cases i with
  | setrgb r g b =>
    obtain ⟨hr, hg, hb⟩ := fields_encodeRgb r g b
    obtain ⟨henc, hrow⟩ := Laws.TableRow.setrgb r g b
    rw [henc, decodeEncoded, decode_setrgbRow hrow, hr, hg, hb]
  | hsv2rgb h sat val =>
    obtain ⟨hh, hs, hv⟩ := fields_encodeHsv h sat val
    obtain ⟨henc, hrow⟩ := Laws.TableRow.hsv2rgb h sat val
    rw [henc, decodeEncoded, decode_hsv2rgbRow hrow, hh, hs, hv]
  | write =>
    obtain ⟨henc, hrow⟩ := Laws.TableRow.write
    rw [henc, decodeEncoded, decode_writeRow hrow]
  | emit0 => rfl
  | emit1 => rfl

/-- Settles O3: a word that decodes lies in a row, and a row's words are determined by their operand fields. -/
theorem encodeOfDecodeIsTheWord : Obligations.EncodeOfDecodeIsTheWord := by
  intro w i hd
  obtain ⟨hrow, rfl⟩ | ⟨hrow, rfl⟩ | ⟨hrow, rfl⟩ := decode_ok_cases hd
  · exact congrArg Encoded.word (encodeRgb_fields hrow)
  · exact congrArg Encoded.word (encodeHsv_fields hrow)
  · exact congrArg Encoded.word (writeRow_iff_eq.mp hrow).symm

/-- Settles O4: each row decodes to its command; no word matches two rows because the rows differ in `op`. -/
theorem rowsMatchByMask : Obligations.RowsMatchByMask := by
  intro w
  refine ⟨decode_setrgbRow, decode_hsv2rgbRow, decode_writeRow, ?_, ?_⟩
  · rintro ⟨i, hd⟩
    exact (decode_ok_cases hd).imp And.left (Or.imp And.left And.left)
  · rw [setrgbRow_iff, hsv2rgbRow_iff, writeRow_iff]
    exact ⟨not_two_ops (by decide), not_two_ops (by decide), not_two_ops (by decide)⟩

/-- Settles O5: a word with a reserved `op` or a set zero bit is in no row, so the step is refused before anything runs; a word
of HSV2RGB's row outside the domain is refused by the command. -/
theorem reservedAndOutOfDomainWordsRefused : Obligations.ReservedAndOutOfDomainWordsRefused := by
  intro s w hr hp ho
  constructor
  · intro hres
    obtain ⟨e, hd⟩ := decode_error_of_reserved hres
    exact step_reserved hr hp ho hd
  · intro hop hzero hdom
    have hd := decode_hsv2rgbRow (hsv2rgbRow_iff.mpr ⟨hop, hzero⟩)
    have he : exec (.hsv2rgb (fieldH w) (fieldS w) (fieldV w)) s = .refused .operandOutOfDomain :=
      exec_hsv2rgb_outOfDomain hp hdom
    rw [step_command hr hp ho hd, he, andThen_refused]

/-- Settles O31: every slot of the frame reads back as its bit, the last one with the gap as its bit and the frame's end. -/
theorem frameReadsBackWithItsEnd : Obligations.FrameReadsBackWithItsEnd := fun _ color hc hgap =>
  readWire_wireOf_gap hc hgap (framebits_ne_nil color)

/-- Settles O32, by induction on the bits: a slot's low part is a run of its own, since the next slot begins high. -/
theorem lowRunsInsideFrameAreShort : Obligations.LowRunsInsideFrameAreShort := by
  intro c bits hc
  induction bits with
  | nil => exact fun r hr => absurd hr List.not_mem_nil
  | cons b bits ih =>
    have hhead : (wireOf c bits).head? ≠ some false := by
      simpa using wireOf_append_head?_ne hc bits (xs := []) nofun
    intro r hr hlow
    rw [wireOf_cons, sym, runsOf_slot (nh_pos hc b) (nl_pos hc b) hhead, List.mem_cons, List.mem_cons] at hr
    obtain rfl | rfl | hr := hr
    · cases hlow
    · exact nl_le hc b
    · exact ih r hr hlow

/-- Settles O33: the wire order is the multiplexers', which say channel and bit. -/
theorem wireOrderIsGreenRedBlueMsbFirst : Obligations.WireOrderIsGreenRedBlueMsbFirst := fun p j hj =>
  ⟨(framebit_eq_serialBit p hj).trans (serialBit_eq p j), (framebit_eq_serialBit p hj).symm⟩

/-- Settles O1: five closed words and the two requests, evaluated. -/
theorem decodeOfSpecWords : Obligations.DecodeOfSpecWords := by
  refine ⟨?_, ?_, ?_, ?_, ?_, rfl, rfl⟩ <;> decide

/-- Settles O18: the step in each phase, the host's move part by part, and a bench whose word was accepted. -/
theorem stepRunsDecodedInstruction : Obligations.StepRunsDecodedInstruction := by
  intro s hr
  refine ⟨fun w i hp ho hd => step_command hr hp ho hd, fun hp => step_request hr hp, ?_, ?_, ?_⟩
  · intro hp
    rw [step_latch hr hp, latchTick_eq]
  · intro a t
    exact ⟨hostMove_cfg a t, hostMove_regs a t, hostMove_obs a t, hostMove_shown a t, hostEnv_rst a _ _, hostEnv_rstPlan a _ _⟩
  · intro w i agenda t hp ho hd hb hstep
    rw [step_command hr hp ho hd] at hstep
    obtain ⟨u, hu, rfl⟩ := andThen_eq_next.mp hstep
    rw [hostMove_env, exec_command_idle_env hp (decode_isCommand hd) hu]
    exact hostEnv_bench hb (stillHeld_accepted _) _

end Sys2Proof.Machine
end

section
/-! PROOFS. Support for the encoder's statements: a micro-operation in and outside SEND, the advance at a slot's last tick, a
symbol tick by tick, the rest of a slot in one run, and bits read back (R71, R78, R100 to R112, R132). -/

namespace Sys2Proof.Machine

variable {s : State} {r : CoreRegs} {c : Config}

/-! ## The micro-operations (R101, R102, R105) -/

theorem emitTick_not_send (h : s.regs.phase ≠ .send) (b : Bit) : emitTick b s = .refused .emitOutsideSend := by
  cases hp : s.regs.phase with
  | idle => simp [emitTick, hp]
  | send => exact absurd hp h
  | latch => simp [emitTick, hp]

/-- A tick of a slot in numbers: the level is high while `N < NH(b)`, the bit is counted at the first tick (R35, R104). -/
theorem slotTick_eq (b : Bit) (s : State) :
    slotTick b s = { s with
      regs := advance s.cfg s.regs
      obs := { s.obs with
        w := s.obs.w ++ [decide (s.regs.n < s.cfg.nh b)]
        sigma := s.obs.sigma ++ (if s.regs.n = 0 then [b] else []) } } := by
  by_cases hn : s.regs.n = 0 <;> simp [slotTick, sampleWire, slotLevel, hn]

/-! ## The advance of the sequencer (R130, R132) -/

/-- Short of the last tick of the frame's last slot the sequencer keeps PHASE, HF and L. -/
theorem advance_inside_frame (h : ¬ (c.nBit - 1 ≤ r.n ∧ 23 ≤ r.j ∧ 59 ≤ r.k)) :
    (advance c r).phase = r.phase ∧ (advance c r).hf = r.hf ∧ (advance c r).l = r.l := by
  obtain ⟨-, he⟩ | ⟨-, -, he⟩ | ⟨-, -, -, he⟩ | ⟨hn, hj, hk, -⟩ := advance_cases c r
  · rw [he]; exact ⟨rfl, rfl, rfl⟩
  · rw [he]; exact ⟨rfl, rfl, rfl⟩
  · rw [he]; exact ⟨rfl, rfl, rfl⟩
  · exact absurd ⟨Nat.le_of_not_lt hn, Nat.le_of_not_lt hj, Nat.le_of_not_lt hk⟩ h

theorem advance_inside_slot (h : r.n < c.nBit - 1) : advance c r = { r with n := r.n + 1 } := if_pos h

/-- From a slot's last tick the sequencer goes to the first tick of the next slot, or to the gap after the frame's last one;
said of the registers at the slot's first tick. -/
theorem advance_last_tick (c : Config) (h : r.n = 0) :
    advance c { r with n := c.nBit - 1 } =
      if r.j < 23 then { r with j := r.j + 1 }
      else if r.k < 59 then { r with j := 0, k := r.k + 1 }
      else { r with j := 0, k := 0, l := 0, hf := false, phase := .latch } := by
  cases r
  cases h
  exact if_neg (Nat.lt_irrefl _)

/-! ## A symbol, tick by tick (R71, R104) -/

theorem nh_lt_nBit (hc : c.Valid) (b : Bit) : c.nh b < c.nBit := Nat.lt_of_sub_pos (nl_pos hc b)

theorem sym_length (hc : c.Valid) (b : Bit) : (sym c b).length = c.nBit := by
  rw [sym, List.length_append, List.length_replicate, List.length_replicate, Config.nl,
    Nat.add_sub_cancel' (nh_lt_nBit hc b).le]

/-- What is left of a symbol at a tick of its slot begins with that tick's level. -/
theorem sym_drop (hc : c.Valid) (b : Bit) {n : Nat} (hn : n < c.nBit) :
    (sym c b).drop n = slotLevel c b n :: (sym c b).drop (n + 1) := by
  rw [List.drop_eq_getElem_cons (by rwa [sym_length hc])]
  congr 1
  by_cases h : n < c.nh b <;> simp [sym, slotLevel, List.getElem_append, h]

/-- R71's symbol in numbers. -/
theorem sym_eq (c : Config) (b : Bit) :
    sym c b =
      if b then List.replicate c.n1h true ++ List.replicate (c.nBit - c.n1h) false
      else List.replicate c.n0h true ++ List.replicate (c.nBit - c.n0h) false := by
  cases b <;> rfl

/-! ## The rest of a slot in one run (R110, R133) -/

/-- What the ticks of a slot from the present one on leave, the host aside: the rest of the symbol on the wire, the bit counted
if its first tick is among them, the position behind the slot. From the first tick it is `emitSlot` (`finishSlot_eq_emitSlot`). -/
def finishSlot (b : Bit) (s : State) : State :=
  { s with
    obs := { s.obs with
      w := s.obs.w ++ (sym s.cfg b).drop s.regs.n
      sigma := s.obs.sigma ++ (if s.regs.n = 0 then [b] else []) }
    regs := advance s.cfg { s.regs with n := s.cfg.nBit - 1 } }

theorem finishSlot_eq_emitSlot (h : s.regs.n = 0) (b : Bit) : finishSlot b s = emitSlot b s := by
  simp [finishSlot, emitSlot, h]

/-- At the slot's last tick only that tick is left. -/
theorem finishSlot_last_tick (hc : s.cfg.Valid) (hn : s.regs.n + 1 = s.cfg.nBit) (b : Bit) :
    finishSlot b s = slotTick b s := by
  have hdrop : (sym s.cfg b).drop s.regs.n = [slotLevel s.cfg b s.regs.n] := by
    rw [sym_drop hc b (by omega), hn, List.drop_of_length_le (sym_length hc b).le]
  have hlast : s.cfg.nBit - 1 = s.regs.n := by omega
  rw [finishSlot, slotTick_eq, hdrop, hlast]
  rfl

/-- A tick before the last one leaves the same to do as was left, less what it has done. -/
theorem finishSlot_slotTick (hc : s.cfg.Valid) (hn : s.regs.n < s.cfg.nBit - 1) (b : Bit) :
    finishSlot b (slotTick b s) = finishSlot b s := by
  have hdrop := sym_drop hc b (n := s.regs.n) (by omega)
  have hregs : (slotTick b s).regs = { s.regs with n := s.regs.n + 1 } := advance_inside_slot hn
  rw [finishSlot, finishSlot, hregs, slotTick_eq]
  simp [hdrop, slotLevel]

/-- The ticks left of a slot, with `rst` low on them, do what `finishSlot` says; whatever further ticks `rst` is low on are
still to come. By induction on the ticks left. -/
theorem runSteps_finishSlot {d m : Nat} (hc : s.cfg.Valid) (hp : s.regs.phase = .send)
    (hd : s.regs.n + d + 1 = s.cfg.nBit) (hr : RstLowFor (d + 1 + m) s.env) :
    ∃ e, runSteps (d + 1) s = .next { finishSlot (beBit s.regs) s with env := e } ∧ RstLowFor m e := by
  induction d generalizing s with
  | zero =>
    rw [show 0 + 1 + m = m + 1 by omega] at hr
    rw [finishSlot_last_tick hc hd, runSteps_succ_of_next (step_send (rst_of_rstLowFor hr) hp)]
    exact ⟨_, rfl, rstLowFor_hostEnv hr _ _⟩
  | succ d ih =>
    rw [show d + 1 + 1 + m = d + 1 + m + 1 by omega] at hr
    have hn : s.regs.n < s.cfg.nBit - 1 := by omega
    have hregs : (hostMove false (slotTick (beBit s.regs) s)).regs = { s.regs with n := s.regs.n + 1 } :=
      advance_inside_slot hn
    have hleft : s.regs.n + 1 + d + 1 = s.cfg.nBit := by omega
    obtain ⟨e, he, hm⟩ := ih (s := hostMove false (slotTick (beBit s.regs) s)) hc (hregs ▸ hp) (hregs ▸ hleft)
      (rstLowFor_hostEnv hr _ _)
    refine ⟨e, ?_, hm⟩
    rw [runSteps_succ_of_next (step_send (rst_of_rstLowFor hr) hp), he, ← finishSlot_slotTick hc hn, hregs]
    rfl

/-- N_BIT ticks from a slot's first one are the whole slot at once (R101, R102, R110). -/
theorem runSteps_emitSlot {m : Nat} (hc : s.cfg.Valid) (hp : s.regs.phase = .send) (hn : s.regs.n = 0)
    (hr : RstLowFor (s.cfg.nBit + m) s.env) :
    ∃ e, runSteps s.cfg.nBit s = .next { emitSlot (beBit s.regs) s with env := e } ∧ RstLowFor m e := by
  obtain ⟨d, hd⟩ := Nat.exists_eq_add_one.mpr (Nat.zero_lt_of_lt (two_lt_nBit hc))
  rw [hd] at hr ⊢
  rw [← finishSlot_eq_emitSlot hn]
  exact runSteps_finishSlot hc hp (by omega) hr

/-! ## Bits read back (R78, R112) -/

@[simp] theorem tokenBits_bit_cons (b : Bit) (ts : List WireToken) : tokenBits (.bit b :: ts) = b :: tokenBits ts := rfl

@[simp] theorem tokenBits_endOfFrame_cons (ts : List WireToken) : tokenBits (.endOfFrame :: ts) = tokenBits ts := rfl

/-- A symbol is read as its bit, whether or not its low part is as long as the gap. -/
theorem readBits_sym_append (hc : c.Valid) (b : Bit) {xs : List Level} (hxs : xs.head? ≠ some false) :
    readBits c (sym c b ++ xs) = (readBits c xs).map (b :: ·) := by
  rw [readBits, readBits, sym, readWire_slot hc b le_rfl hxs, Option.map_map, Option.map_map]
  congr 1
  funext ts
  by_cases hlow : c.nReset ≤ c.nl b <;> simp [hlow]

end Sys2Proof.Machine
end

section
/-! PROOFS. The encoder's statements: the frame of EMIT0 and EMIT1 (O15), a slot's ticks (O29), reading bits back (O30), one
tick of a slot (O11) and requests outside SEND (O12). -/

namespace Sys2Proof.Machine

/-- Settles O15: a micro-operation that has a next state is a tick of a slot in SEND, which changes the traces' W and SIGMA and
the sequencer's position. -/
theorem emitFrame : Obligations.EmitFrame := by
  intro i s t hi he
  obtain ⟨b, hb⟩ : ∃ b, i = decodeRequest b := hi.elim (⟨false, ·⟩) (⟨true, ·⟩)
  rw [hb, exec_decodeRequest] at he
  obtain ⟨hp, rfl⟩ := emitTick_next he
  refine ⟨rfl, rfl, rfl, rfl, advance_color _ _, advance_colorValid _ _, fun hlast => ?_⟩
  rw [slotTick_regs, ← hp]
  exact advance_inside_frame hlast

/-- Settles O29: the N_BIT ticks are `emitSlot` (`runSteps_emitSlot`), and its symbol and next position are these numbers. -/
theorem slotTakesNBitTicks : Obligations.SlotTakesNBitTicks := by
  intro s hc hp hn hr
  obtain ⟨e, he, -⟩ := runSteps_emitSlot (m := 0) hc hp hn hr
  exact ⟨_, he, rfl, congrArg (s.obs.w ++ ·) (sym_eq _ _), rfl, rfl, advance_last_tick _ hn⟩

/-- Settles O30, by induction on the bits: a symbol before the next one, or before nothing, is read as its bit. -/
theorem wireReadsBackEveryBitList : Obligations.WireReadsBackEveryBitList := by
  intro c bits hc
  induction bits with
  | nil => rfl
  | cons b bits ih =>
    have hhead : (wireOf c bits).head? ≠ some false := by
      simpa using wireOf_append_head?_ne hc bits (xs := []) nofun
    rw [wireOf_cons, readBits_sym_append hc b hhead, ih]
    rfl

/-- Settles O11: in SEND each micro-operation is the tick of a slot with its bit. -/
theorem emitTickDrivesItsSlot : Obligations.EmitTickDrivesItsSlot := by
  intro s hp
  constructor
  · exact (emitTick_send hp false).trans (congrArg _ (slotTick_eq false s))
  · exact (emitTick_send hp true).trans (congrArg _ (slotTick_eq true s))

/-- Settles O12: neither micro-operation has a meaning outside SEND. -/
theorem emitOutsideSendRefused : Obligations.EmitOutsideSendRefused := fun _ hp =>
  ⟨emitTick_not_send hp false, emitTick_not_send hp true⟩

end Sys2Proof.Machine
end

section
/-! PROOFS. Support for the PixelWriter's statements: the step in IDLE without a command and while busy, the frame's bits by
position, and the ticks of a gap, of a frame and of a whole WRITE in one run each (R120, R123, R129 to R133, R138). -/

namespace Sys2Proof.Machine

variable {s : State}

/-! ## The step without a command, and while busy (R131, R132, R256) -/

theorem cmdValid_eq_false {o : Offer} : cmdValid o = false ↔ o = .quiet := by cases o <;> simp [cmdValid]

theorem step_idle_quiet (hr : s.env.rst = false) (hp : s.regs.phase = .idle) (ho : s.env.offer = .quiet) :
    step s = .next (hostMove false (idleTick s)) := by
  rw [step, fetch_idle hr hp, fetchCommand_quiet (by rw [ho]; rfl), ← sequencerTick_idle hp]

theorem step_busy (hr : s.env.rst = false) (hp : s.regs.phase ≠ .idle) :
    step s = .next (hostMove false (sequencerTick s)) := by
  cases hph : s.regs.phase with
  | idle => exact absurd hph hp
  | send => rw [step_send hr hph, sequencerTick_send hph]
  | latch => rw [step_latch hr hph, sequencerTick_latch hph]

/-- The sequencer reads and changes nothing of the surroundings, the command port included (R131). -/
theorem sequencerTick_withEnv (s : State) (e : Env) :
    sequencerTick { s with env := e } = { sequencerTick s with env := e } := by
  cases hp : s.regs.phase with
  | idle => rw [sequencerTick_idle hp, sequencerTick_idle (s := { s with env := e }) hp]; rfl
  | send => rw [sequencerTick_send hp, sequencerTick_send (s := { s with env := e }) hp]; rfl
  | latch =>
    rw [sequencerTick_latch hp, sequencerTick_latch (s := { s with env := e }) hp, latchTick, latchTick]
    split <;> rfl

/-- A test bench keeps a held word that was not accepted (R131). -/
theorem hostEnv_bench_held {e : Env} {agenda : List Offer} {w : Word} (h : e.driver = .bench agenda)
    (ho : e.offer = .hold w) (ready : Bool) :
    (hostEnv false ready e).offer = .hold w ∧ (hostEnv false ready e).driver = .bench agenda := by
  simp [hostEnv, h, benchMove, ho, stillHeld]

/-! ## The frame's bits by position (R73, R123, R138) -/

theorem pixbits_length (p : Pixel) : (pixbits p).length = 24 := by
  rw [pixbits, List.length_map, List.length_range, bitsPerPixel_eq]

theorem pixbits_getElem? (p : Pixel) {j : Nat} (hj : j < 24) : (pixbits p)[j]? = some (framebit p j) := by
  rw [pixbits, bitsPerPixel_eq, List.getElem?_map, List.getElem?_range hj, Option.map_some]

/-- A pixel-frame is R123's inner loops: the multiplexers of R124 and R125 run through channels and bits in that order. -/
theorem pixbits_eq_loops (p : Pixel) :
    pixbits p = [p.g, p.r, p.b].flatMap fun ch => [7, 6, 5, 4, 3, 2, 1, 0].map fun m => ch.getLsbD m := by
  have hserial : pixbits p = (List.range 24).map (serialBit p) :=
    List.map_congr_left fun j hj => framebit_eq_serialBit p (List.mem_range.mp hj)
  rw [hserial]
  rfl

@[simp] theorem framebitsOf_cons (p : Pixel) (strip : List Pixel) :
    framebitsOf (p :: strip) = pixbits p ++ framebitsOf strip := rfl

theorem framebitsOf_length (strip : List Pixel) : (framebitsOf strip).length = 24 * strip.length := by
  induction strip with
  | nil => rfl
  | cons p strip ih =>
    rw [framebitsOf_cons, List.length_append, pixbits_length, ih, List.length_cons]
    omega

theorem framebitsOf_eq_loopNest (strip : List Pixel) : framebitsOf strip = loopNest strip :=
  congrArg (strip.flatMap ·) (funext pixbits_eq_loops)

/-- Request `24 * k + j` carries wire position `j` of Pixel `k` (R138). -/
theorem framebitsOf_getElem? {strip : List Pixel} {k j : Nat} {p : Pixel} (hp : strip[k]? = some p) (hj : j < 24) :
    (framebitsOf strip)[24 * k + j]? = some (framebit p j) := by
  induction strip generalizing k with
  | nil => cases hp
  | cons q strip ih =>
    have hlen := pixbits_length q
    cases k with
    | zero =>
      obtain rfl : q = p := by simpa using hp
      rw [framebitsOf_cons, List.getElem?_append_left (by omega), show 24 * 0 + j = j by omega, pixbits_getElem? q hj]
    | succ k =>
      rw [framebitsOf_cons, List.getElem?_append_right (by omega), hlen, show 24 * (k + 1) + j - 24 = 24 * k + j by omega]
      exact ih hp

theorem framebits_length (color : Pixel) : (framebits color).length = 1440 := by
  rw [framebits, framebitsOf_length, stripOf, List.length_replicate, numLeds_eq]

/-- From position (K, J) on the frame has bit J of COLOR left, and then what it has from the next position on (R122). -/
theorem framebits_drop (color : Pixel) {k j : Nat} (hk : k < 60) (hj : j < 24) :
    (framebits color).drop (24 * k + j) = framebit color j :: (framebits color).drop (24 * k + j + 1) := by
  have hstrip : (stripOf color)[k]? = some color := by
    rw [stripOf, List.getElem?_replicate, if_pos (numLeds_eq ▸ hk)]
  obtain ⟨hlt, hbit⟩ := List.getElem?_eq_some_iff.mp (framebitsOf_getElem? hstrip hj)
  rw [← hbit]
  exact List.drop_eq_getElem_cons hlt

/-! ## The gap in one run (R129, R134) -/

/-- What `k` ticks of the gap from its first one leave, the host aside, while the gap lasts. -/
def gapTicks (k : Nat) (s : State) : State :=
  { s with obs := { s.obs with w := s.obs.w ++ List.replicate k false }, regs := { s.regs with l := k } }

/-- What the whole gap leaves, the host aside: the frame is complete (R129, R134). -/
def wholeGap (s : State) : State :=
  { s with
    obs := { s.obs with
      w := s.obs.w ++ List.replicate s.cfg.nReset false, frames := s.obs.frames ++ [stripOf s.regs.color] }
    regs := { s.regs with l := 0, phase := .idle }
    shown := .strip (stripOf s.regs.color) }

theorem gapTicks_zero (hl : s.regs.l = 0) : gapTicks 0 s = s := by
  obtain ⟨_, regs, _, _, _⟩ := s
  cases regs
  cases hl
  simp [gapTicks]

theorem latchTick_gapTicks {k : Nat} (hk : k + 1 < s.cfg.nReset) : latchTick (gapTicks k s) = gapTicks (k + 1) s := by
  have hl : k < s.cfg.nReset - 1 := by omega
  simp [latchTick_eq, gapTicks, hl, List.replicate_succ']

theorem latchTick_gapTicks_last {k : Nat} (hk : k + 1 = s.cfg.nReset) : latchTick (gapTicks k s) = wholeGap s := by
  simp [latchTick_eq, gapTicks, wholeGap, ← hk, List.replicate_succ', stripOf, numLeds_eq]

/-- A tick of the gap, after a run whose end is known but for the surroundings. -/
theorem runSteps_then_latchTick {k m : Nat} {t : State} {e : Env} (h : runSteps k s = .next { t with env := e })
    (hp : t.regs.phase = .latch) (hr : RstLowFor (m + 1) e) :
    ∃ e', runSteps (k + 1) s = .next { latchTick t with env := e' } ∧ RstLowFor m e' := by
  have htick : latchTick { t with env := e } = { latchTick t with env := e } := by
    rw [← sequencerTick_latch hp, ← sequencerTick_withEnv]
    exact (sequencerTick_latch (s := { t with env := e }) hp).symm
  have hstep := step_latch (s := { t with env := e }) (rst_of_rstLowFor hr) hp
  rw [htick] at hstep
  exact ⟨_, runSteps_then_step h hstep, rstLowFor_hostEnv hr _ _⟩

/-- Before the gap is over its ticks only count, and put lows on the wire. By induction on the ticks. -/
theorem runSteps_gapTicks {k m : Nat} (hp : s.regs.phase = .latch) (hl : s.regs.l = 0) (hk : k < s.cfg.nReset)
    (hr : RstLowFor (k + m) s.env) :
    ∃ e, runSteps k s = .next { gapTicks k s with env := e } ∧ RstLowFor m e := by
  induction k generalizing m with
  | zero =>
    rw [Nat.zero_add] at hr
    exact ⟨s.env, by rw [gapTicks_zero hl]; rfl, hr⟩
  | succ k ih =>
    rw [show k + 1 + m = k + (m + 1) by omega] at hr
    obtain ⟨e, he, hm⟩ := ih (Nat.lt_of_succ_lt hk) hr
    rw [← latchTick_gapTicks hk]
    exact runSteps_then_latchTick he hp hm

/-- N_RESET ticks from the gap's first one are the whole gap. -/
theorem runSteps_wholeGap {m : Nat} (hc : s.cfg.Valid) (hp : s.regs.phase = .latch) (hl : s.regs.l = 0)
    (hr : RstLowFor (s.cfg.nReset + m) s.env) :
    ∃ e, runSteps s.cfg.nReset s = .next { wholeGap s with env := e } ∧ RstLowFor m e := by
  obtain ⟨k, hk⟩ := Nat.exists_eq_add_one.mpr (nReset_pos hc)
  rw [hk, show k + 1 + m = k + (m + 1) by omega] at hr
  obtain ⟨e, he, hm⟩ := runSteps_gapTicks hp hl (by omega) hr
  rw [hk, ← latchTick_gapTicks_last hk.symm]
  exact runSteps_then_latchTick he hp hm

/-! ## The frame in one run (R120, R123, R133) -/

/-- What the slots of a frame from position (K, J) on leave, the host aside: the rest of the frame's symbols and bits, and the
sequencer at the gap's first tick. -/
def finishFrame (s : State) : State :=
  { s with
    obs := { s.obs with
      w := s.obs.w ++ wireOf s.cfg ((framebits s.regs.color).drop (24 * s.regs.k + s.regs.j))
      sigma := s.obs.sigma ++ (framebits s.regs.color).drop (24 * s.regs.k + s.regs.j) }
    regs := { s.regs with k := 0, j := 0, l := 0, hf := false, phase := .latch } }

/-- At the frame's last slot only that slot is left. -/
theorem finishFrame_last_slot (hn : s.regs.n = 0) (hk : s.regs.k = 59) (hj : s.regs.j = 23) :
    finishFrame s = emitSlot (beBit s.regs) s := by
  have hdrop : (framebits s.regs.color).drop (24 * s.regs.k + s.regs.j) = [beBit s.regs] := by
    rw [framebits_drop s.regs.color (by omega) (by omega), List.drop_of_length_le (by rw [framebits_length]; omega)]
    rfl
  rw [finishFrame, emitSlot, hdrop, advance_last_tick _ hn, if_neg (by omega), if_neg (by omega), wireOf_cons, wireOf_nil,
    List.append_nil]

/-- Where the slot before the frame's last one leaves the sequencer: one position on, in SEND (R132). -/
theorem emitSlot_position (hn : s.regs.n = 0) (hj : s.regs.j < 24) (hlast : 24 * s.regs.k + s.regs.j + 1 < 1440) (b : Bit) :
    ∃ k j, (emitSlot b s).regs = { s.regs with k := k, j := j } ∧ j < 24 ∧ 24 * k + j = 24 * s.regs.k + s.regs.j + 1 := by
  rw [emitSlot_regs, advance_last_tick _ hn]
  by_cases hbit : s.regs.j < 23
  · exact ⟨s.regs.k, s.regs.j + 1, by rw [if_pos hbit], by omega, by omega⟩
  · exact ⟨s.regs.k + 1, 0, by rw [if_neg hbit, if_pos (by omega)], by omega, by omega⟩

/-- A slot before the frame's last one leaves the same to do as was left, less what it has done. -/
theorem finishFrame_emitSlot (hn : s.regs.n = 0) (hj : s.regs.j < 24) (hlast : 24 * s.regs.k + s.regs.j + 1 < 1440) :
    finishFrame (emitSlot (beBit s.regs) s) = finishFrame s := by
  obtain ⟨k, j, hregs, -, hpos⟩ := emitSlot_position hn hj hlast (beBit s.regs)
  have hdrop : (framebits s.regs.color).drop (24 * s.regs.k + s.regs.j) =
      beBit s.regs :: (framebits s.regs.color).drop (24 * k + j) := by
    rw [hpos]
    exact framebits_drop s.regs.color (by omega) hj
  rw [finishFrame, hregs]
  simp [finishFrame, hdrop]

/-- The ticks of the slots left of a frame, with `rst` low on them, do what `finishFrame` says; whatever further ticks `rst`
is low on are still to come. By induction on the slots left. -/
theorem runSteps_finishFrame {d m : Nat} (hc : s.cfg.Valid) (hp : s.regs.phase = .send) (hn : s.regs.n = 0)
    (hj : s.regs.j < 24) (hd : 24 * s.regs.k + s.regs.j + d + 1 = 1440) (hr : RstLowFor ((d + 1) * s.cfg.nBit + m) s.env) :
    ∃ e, runSteps ((d + 1) * s.cfg.nBit) s = .next { finishFrame s with env := e } ∧ RstLowFor m e := by
  induction d generalizing s with
  | zero =>
    rw [Nat.zero_add, Nat.one_mul] at hr ⊢
    rw [finishFrame_last_slot hn (by omega) (by omega)]
    exact runSteps_emitSlot hc hp hn hr
  | succ d ih =>
    have hticks : (d + 1 + 1) * s.cfg.nBit = s.cfg.nBit + (d + 1) * s.cfg.nBit := by rw [Nat.succ_mul, Nat.add_comm]
    rw [hticks] at hr ⊢
    obtain ⟨e, he, hrest⟩ := runSteps_emitSlot hc hp hn (Nat.add_assoc _ _ m ▸ hr)
    obtain ⟨k, j, hregs, hj', hpos⟩ := emitSlot_position hn hj (by omega) (beBit s.regs)
    obtain ⟨e', he', hm⟩ := ih (s := { emitSlot (beBit s.regs) s with env := e }) hc (hregs ▸ hp) (hregs ▸ hn)
      (hregs ▸ hj') (by simp only [hregs]; omega) hrest
    refine ⟨e', ?_, hm⟩
    rw [runSteps_add he, ← finishFrame_emitSlot hn hj (by omega)]
    exact he'

/-! ## A whole WRITE in one run (R120, R133) -/

/-- A frame from its first slot and then its gap are R120's big step. -/
theorem wholeGap_finishFrame_startFrame (s : State) :
    wholeGap (finishFrame (startFrame s)) = writeWhole { s with obs := sampleWire false s.obs } := by
  simp [wholeGap, finishFrame, startFrame, writeWhole, frameWave]

/-- WRITE accepted on an idle core with a colour loaded (R132). -/
theorem step_write {w : Word} (hr : s.env.rst = false) (hp : s.regs.phase = .idle) (hv : s.regs.colorValid = true)
    (ho : cmdWord? s.env.offer = some w) (hd : decode w = .ok .write) :
    step s = .next (hostMove true (startFrame s)) := by
  rw [step_command hr hp ho hd, exec, execWrite_idle hp, if_pos hv, andThen_next]

/-- WRITE on an idle core that no colour has been loaded into (R136). -/
theorem exec_write_unwritten (hp : s.regs.phase = .idle) (hv : s.regs.colorValid = false) :
    exec .write s = .refused .colorUnwritten := by
  rw [exec, execWrite_idle hp, hv]
  rfl

/-- The tick that accepts WRITE and the ticks of its frame and gap do what R120's big step does, after one low sample for the
accepting tick. -/
theorem runSteps_writeWhole {w : Word} (hc : s.cfg.Valid) (hp : s.regs.phase = .idle) (hv : s.regs.colorValid = true)
    (hr : RstLowFor (1 + frameTicks s.cfg) s.env) (ho : cmdWord? s.env.offer = some w) (hd : decode w = .ok .write) :
    ∃ e, runSteps (1 + frameTicks s.cfg) s = .next { writeWhole { s with obs := sampleWire false s.obs } with env := e } := by
  rw [Nat.add_comm] at hr ⊢
  have haccept := step_write (rst_of_rstLowFor hr) hp hv ho hd
  have hlow := rstLowFor_hostEnv hr true (cmdReady (startFrame s).regs)
  obtain ⟨e, hframe, hgap⟩ := runSteps_finishFrame (s := hostMove true (startFrame s)) (d := 1439) hc rfl rfl
    (Nat.zero_lt_succ _) rfl hlow
  obtain ⟨e', hwhole, -⟩ := runSteps_wholeGap (s := { finishFrame (hostMove true (startFrame s)) with env := e }) (m := 0) hc
    rfl rfl hgap
  refine ⟨e', ?_⟩
  rw [runSteps_succ_of_next haccept, frameTicks, bitsPerPixel_eq, numLeds_eq, ← wholeGap_finishFrame_startFrame]
  exact (runSteps_add hframe).trans hwhole

/-- On an idle core R38 makes the counters and HF 0 already. -/
theorem regsInv_idle_eq {r : CoreRegs} (h : RegsInv c r) (hp : r.phase = .idle) :
    { r with phase := .idle, k := 0, j := 0, n := 0, l := 0, hf := false } = r := by
  obtain ⟨hk, hj, hn⟩ := h.send_only (by rw [hp]; decide)
  have hl : r.l = 0 := h.latch_only (by rw [hp]; decide)
  have hhf : r.hf = false := by rw [← Bool.not_eq_true, h.hf_iff, hp]; decide
  cases r
  cases hp; cases hk; cases hj; cases hn; cases hl; cases hhf
  rfl

end Sys2Proof.Machine
end

section
/-! PROOFS. The PixelWriter's statements: the port while busy (O23), a strip's requests (O34), the gap's ticks (O35), WRITE's
ticks against the big step (O36), SETRGB (O6), WRITE's accepting tick and refusal (O8, O9), and a tick with no command (O19). -/

namespace Sys2Proof.Machine

/-- Settles O36: the run is R120's big step (`runSteps_writeWhole`), which gives the registers back on an idle core. -/
theorem writeTicksAgreeWithBigStep : Obligations.WriteTicksAgreeWithBigStep := by
  intro s hc hinv hp hv hr ho
  obtain ⟨e, he⟩ := runSteps_writeWhole hc hp hv hr ho (decode_writeRow (by decide))
  refine ⟨_, he, rfl, regsInv_idle_eq hinv hp, ?_, rfl, rfl, rfl⟩
  exact (List.append_assoc _ _ _).symm

/-- Settles O35: `k` ticks inside the gap are `gapTicks k`, all N_RESET of them `wholeGap`. -/
theorem gapLastsNResetTicks : Obligations.GapLastsNResetTicks := by
  intro s hc hp hl hr
  constructor
  · intro k hk
    obtain ⟨e, he, -⟩ := runSteps_gapTicks (m := 0) hp hl hk (rstLowFor_mono hk.le hr)
    exact ⟨_, he, rfl, rfl, rfl⟩
  · obtain ⟨e, he, -⟩ := runSteps_wholeGap (m := 0) hc hp hl hr
    exact ⟨_, he, rfl, rfl, rfl, rfl, rfl⟩

/-- Settles O34: a request is a wire position of its Pixel (`framebitsOf_getElem?`), and the position names channel and bit. -/
theorem requestsOfAnyStrip : Obligations.RequestsOfAnyStrip := by
  intro strip
  refine ⟨framebitsOf_length strip, framebitsOf_eq_loopNest strip, fun k p m hp hm => ⟨?_, ?_, ?_⟩⟩
  · rw [framebitsOf_getElem? hp (by omega), framebit_green p (by omega), show 7 - (7 - m) % 8 = m by omega]
  · rw [Nat.add_assoc, framebitsOf_getElem? hp (by omega), framebit_red p (by omega),
      show 7 - (8 + (7 - m)) % 8 = m by omega]
  · rw [Nat.add_assoc, framebitsOf_getElem? hp (by omega), framebit_blue p (by omega),
      show 7 - (16 + (7 - m)) % 8 = m by omega]

/-- Settles O23: a busy step is the sequencer's tick, which carries the surroundings along unread; the bench's move then looks
at the kind of offer. -/
theorem busyIgnoresCommandPort : Obligations.BusyIgnoresCommandPort := by
  intro s o hr hp
  have hstep := step_busy (s := { s with env := { s.env with offer := o } }) hr hp
  rw [sequencerTick_withEnv] at hstep
  refine ⟨_, _, step_busy hr hp, hstep, rfl, rfl, rfl, rfl, fun agenda hb => ⟨?_, ?_⟩⟩
  · rintro w rfl
    exact hostEnv_bench_held (e := { s.env with offer := .hold w }) hb rfl _
  · rintro w rfl
    exact hostEnv_bench (e := { s.env with offer := .pulse w }) hb rfl _

/-- Settles O6: in IDLE the command is accepted, and its effect is `loadColor`. -/
theorem setrgbLoadsColor : Obligations.SetrgbLoadsColor := fun _ r g b hp => execSetrgb_idle hp r g b

/-- Settles O8: in IDLE the command is accepted, and with COLOR_VALID set its effect is `startFrame`. -/
theorem writeStartsFrame : Obligations.WriteStartsFrame := fun _ hp hv => (execWrite_idle hp).trans (if_pos hv)

/-- Settles O9: in IDLE the command is accepted, and without COLOR_VALID it is refused; right after reset the core is idle and
COLOR_VALID is 0. -/
theorem writeWithoutColorRefused : Obligations.WriteWithoutColorRefused := by
  refine ⟨fun s => exec_write_unwritten, ?_⟩
  have hd : decode 0x80000000#32 = .ok .write := decode_writeRow (by decide)
  rw [step_command rfl rfl rfl hd, exec_write_unwritten rfl rfl, andThen_refused]

/-- Settles O19: with nothing offered the step is `idleTick` and the host's move, and a bench with no word to keep makes its next
offer. -/
theorem idleTickChangesNothing : Obligations.IdleTickChangesNothing := by
  intro s hr hp ho
  have hq : s.env.offer = .quiet := cmdValid_eq_false.mp ho
  refine ⟨_, step_idle_quiet hr hp hq, rfl, rfl, rfl, rfl, fun agenda hb => ?_⟩
  exact hostEnv_bench hb (by rw [hq]; rfl) _

end Sys2Proof.Machine
end

section
/-! PROOFS. Support for the SensorLoop's statements: the sampled hue, the step with a quiet port or a render's conversion on it,
the host's moves of the three issuing stages, and the loop's discipline kept by each of its moves (R190 to R198). -/

namespace Sys2Proof.Machine

variable {s : State} {r : CoreRegs} {e : Env} {sensor : Sensor} {hue : Nat}

/-! ## The sampled hue and the render's conversion (R194, R198) -/

/-- The clip leaves hues only (R194). -/
theorem sampleHue_le (conversions : List (BitVec 10)) : sampleHue conversions ≤ hMax := by
  unfold sampleHue clipHue hMax
  split <;> omega

theorem decode_renderWord (hue : Nat) : decode (renderWord hue) = .ok (renderCommand hue) :=
  decodeOfEncodeIsIdentity (renderCommand hue)

theorem decode_encodeWrite : decode encodeWrite = .ok .write := decodeOfEncodeIsIdentity .write

/-- A hue fits the nine bits of its operand field (R85). -/
theorem hueOperand_toNat (h : hue ≤ hMax) : (BitVec.ofNat 9 hue).toNat = hue := by
  rw [hMax] at h
  rw [BitVec.toNat_ofNat]
  omega

/-- On an idle core the render's conversion of a legal hue loads its colour: its operands are in the domain (R168, R198). -/
theorem exec_renderCommand (hp : s.regs.phase = .idle) (h : hue ≤ hMax) :
    exec (renderCommand hue) s = .next (loadColor (hsvToRgb hue 100 20) s) := by
  have hdom : hsvInDomain (BitVec.ofNat 9 hue) (BitVec.ofNat 7 renderS) (BitVec.ofNat 7 renderV) = true :=
    hsvInDomain_iff.mpr ⟨by rw [hueOperand_toNat h]; exact Nat.lt_succ_of_le h, by decide, by decide⟩
  rw [renderCommand, exec, execHsv2rgb_idle hp, if_pos hdom, hueOperand_toNat h]
  rfl

/-! ## The step at the loop's stages (R132, R190) -/

@[simp] theorem sequencerTick_env (s : State) : (sequencerTick s).env = s.env := by
  cases hp : s.regs.phase <;> simp [sequencerTick, hp]

/-- With nothing offered the sequencer goes on alone, whatever the phase (R132). -/
theorem step_quiet (hr : s.env.rst = false) (ho : s.env.offer = .quiet) :
    step s = .next (hostMove false (sequencerTick s)) := by
  by_cases hp : s.regs.phase = .idle
  · rw [step_idle_quiet hr hp ho, sequencerTick_idle hp]
  · exact step_busy hr hp

/-- A render's conversion offered to an idle core (R195). -/
theorem step_renderWord (hr : s.env.rst = false) (hp : s.regs.phase = .idle) (ho : s.env.offer = .hold (renderWord hue))
    (h : hue ≤ hMax) : step s = .next (hostMove true (loadColor (hsvToRgb hue 100 20) s)) := by
  rw [step_command hr hp (by rw [ho]; rfl) (decode_renderWord hue), exec_renderCommand hp h, andThen_next]

/-! ## The host's move at the issuing stages (R190, R195, R197) -/

theorem hostEnv_issueColor_accepted (hd : e.driver = .sensorLoop sensor) (hl : e.loopState = .sampling (.issueColor hue))
    (ready : Bool) :
    hostEnv true ready e =
      { nextInputs e with loopState := .sampling (.issueWrite hue), offer := .hold encodeWrite } := by
  simp only [hostEnv, hd, loopMove, nextInputs_loopState, hl, if_true]

theorem hostEnv_issueWrite_accepted (hd : e.driver = .sensorLoop sensor) (hl : e.loopState = .sampling (.issueWrite hue))
    (ready : Bool) :
    hostEnv true ready e = { nextInputs e with loopState := .sampling (.awaitWrite hue), offer := .quiet } := by
  simp only [hostEnv, hd, loopMove, nextInputs_loopState, hl, if_true]

/-- The iteration ends when `busy` has fallen, and waits before. -/
theorem hostEnv_awaitWrite (hd : e.driver = .sensorLoop sensor) (hl : e.loopState = .sampling (.awaitWrite hue))
    (accepted ready : Bool) :
    hostEnv accepted ready e = if ready then finishIteration hue (nextInputs e) else nextInputs e := by
  simp only [hostEnv, hd, loopMove, nextInputs_loopState, hl]

/-! ## The discipline, move by move -/

/-- `LoopInv` of the registers and the surroundings it speaks of: a SensorLoop with a legal sensor, offering what its stage
offers. -/
def LoopDiscipline (r : CoreRegs) (e : Env) : Prop :=
  ∃ sensor, e.driver = .sensorLoop sensor ∧ SensorLegal sensor ∧ LoopOffers r e.offer e.loopState

theorem loopInv_iff : LoopInv s ↔ LoopDiscipline s.regs s.env := by
  unfold LoopInv LoopDiscipline
  cases s.env.driver <;> simp

theorem loopDiscipline_decideRender (hd : e.driver = .sensorLoop sensor) (hs : SensorLegal sensor) (hp : r.phase = .idle)
    (h : hue ≤ hMax) : LoopDiscipline r (decideRender hue e) := by
  by_cases hchange : hue = e.lastHue
  · rw [decideRender_unchanged hchange]
    exact ⟨sensor, hd, hs, rfl, hp⟩
  · rw [decideRender_changed hchange]
    exact ⟨sensor, hd, hs, rfl, h, hp⟩

theorem loopDiscipline_gatherConversions (hd : e.driver = .sensorLoop sensor) (hs : SensorLegal sensor)
    (hp : r.phase = .idle) (ho : e.offer = .quiet) (got : List (BitVec 10)) :
    LoopDiscipline r (gatherConversions got e) := by
  unfold gatherConversions
  split
  · exact ⟨sensor, hd, hs, ho, hp⟩
  · exact loopDiscipline_decideRender hd hs hp (sampleHue_le got)

/-- A tick of sampling: an unfinished poll and a fake sensor without hues leave the loop as it is, a conversion is gathered, a
fake sensor's hue is compared (R192, R201, R207). -/
theorem loopDiscipline_sampleMove (hd : e.driver = .sensorLoop sensor) (hs : SensorLegal sensor) (hp : r.phase = .idle)
    (ho : e.offer = .quiet) {got : List (BitVec 10)} (hl : e.loopState = .sampling (.convert got)) (draw : Nat) :
    LoopDiscipline r (sampleMove draw got sensor e) := by
  have hstay : LoopDiscipline r e := ⟨sensor, hd, hs, by rw [hl]; exact ⟨ho, hp⟩⟩
  match sensor with
  | .adc =>
    rw [sampleMove]
    split
    · exact hstay
    · exact loopDiscipline_gatherConversions hd hs hp ho _
  | .fake [] => exact hstay
  | .fake (hue :: rest) =>
    exact loopDiscipline_decideRender (sensor := .fake rest) rfl (fun x hx => hs x (List.mem_cons_of_mem _ hx)) hp
      (hs hue List.mem_cons_self)

/-- The SensorLoop's move beside a tick on which it offered nothing and which ended in registers `r'`: in Idle and while
sampling the core stands in IDLE, after a WRITE the loop waits until it does. -/
theorem loopDiscipline_hostEnv_quiet {r' : CoreRegs} (h : LoopDiscipline r e) (ho : e.offer = .quiet)
    (hr' : r.phase = .idle → r'.phase = .idle) : LoopDiscipline r' (hostEnv false (cmdReady r') e) := by
  obtain ⟨sensor, hd, hs, hoffers⟩ := h
  cases hl : e.loopState with
  | idle =>
    rw [hl] at hoffers
    obtain ⟨-, hp⟩ := hoffers
    rw [hostEnv_idle hd hl]
    split
    · exact ⟨sensor, hd, hs, by rw [nextInputs_loopState, hl]; exact ⟨ho, hr' hp⟩⟩
    · exact ⟨sensor, hd, hs, ho, hr' hp⟩
  | sampling stage =>
    rw [hl] at hoffers
    cases stage with
    | convert got =>
      obtain ⟨-, hp⟩ := hoffers
      rw [hostEnv_convert hd hl]
      exact loopDiscipline_sampleMove (e := nextInputs e) hd hs (hr' hp) ho hl _
    | issueColor hue =>
      obtain ⟨hhold, -⟩ := hoffers
      rw [ho] at hhold
      cases hhold
    | issueWrite hue =>
      obtain ⟨hhold, -⟩ := hoffers
      rw [ho] at hhold
      cases hhold
    | awaitWrite hue =>
      obtain ⟨-, hhue⟩ := hoffers
      rw [hostEnv_awaitWrite hd hl]
      split
      · exact ⟨sensor, hd, hs, rfl, cmdReady_iff.mp ‹_›⟩
      · exact ⟨sensor, hd, hs, by rw [nextInputs_loopState, hl]; exact ⟨ho, hhue⟩⟩

/-- On a reset tick the SensorLoop keeps its sensor, offers nothing and is Idle (log 10). -/
theorem loopDiscipline_resetEnv {r' : CoreRegs} (h : LoopDiscipline r e) (hp : r'.phase = .idle) (c : Config) :
    LoopDiscipline r' (resetEnv c e) := by
  obtain ⟨sensor, hd, hs, -⟩ := h
  rw [resetEnv, hd]
  exact ⟨sensor, hd, hs, rfl, hp⟩

/-! ## The discipline, step by step -/

theorem loopInv_resetTick (h : LoopInv s) : LoopInv (resetTick s) :=
  loopInv_iff.mpr (loopDiscipline_resetEnv (loopInv_iff.mp h) rfl s.cfg)

/-- A tick on which the loop offers nothing: Idle, sampling, or waiting for `busy` to fall. -/
theorem loopInv_quietTick (h : LoopInv s) (ho : s.env.offer = .quiet) : LoopInv (hostMove false (sequencerTick s)) := by
  have hidle : s.regs.phase = .idle → (sequencerTick s).regs.phase = .idle := fun hp => by
    rw [sequencerTick_idle hp]
    exact hp
  rw [loopInv_iff, hostMove_env, sequencerTick_env]
  exact loopDiscipline_hostEnv_quiet (loopInv_iff.mp h) ho hidle

/-- With the SensorLoop at the port every step has a next state, and its discipline is kept: by the stage the loop is at. -/
theorem exists_step_loopInv (h : LoopInv s) : ∃ t, step s = .next t ∧ LoopInv t := by
  cases hr : s.env.rst with
  | true => exact ⟨_, step_reset hr, loopInv_resetTick h⟩
  | false =>
    obtain ⟨sensor, hd, hs, hoffers⟩ := loopInv_iff.mp h
    cases hl : s.env.loopState with
    | idle =>
      rw [hl] at hoffers
      obtain ⟨ho, -⟩ := hoffers
      exact ⟨_, step_quiet hr ho, loopInv_quietTick h ho⟩
    | sampling stage =>
      rw [hl] at hoffers
      cases stage with
      | convert got =>
        obtain ⟨ho, -⟩ := hoffers
        exact ⟨_, step_quiet hr ho, loopInv_quietTick h ho⟩
      | issueColor hue =>
        obtain ⟨ho, hhue, hp⟩ := hoffers
        refine ⟨_, step_renderWord hr hp ho hhue, loopInv_iff.mpr ?_⟩
        rw [hostMove_env, loadColor_env, hostEnv_issueColor_accepted hd hl]
        exact ⟨sensor, hd, hs, rfl, hhue, hp, rfl⟩
      | issueWrite hue =>
        obtain ⟨ho, hhue, hp, hv⟩ := hoffers
        refine ⟨_, step_write hr hp hv (by rw [ho]; rfl) decode_encodeWrite, loopInv_iff.mpr ?_⟩
        rw [hostMove_env, startFrame_env, hostEnv_issueWrite_accepted hd hl]
        exact ⟨sensor, hd, hs, rfl, hhue⟩
      | awaitWrite hue =>
        obtain ⟨ho, -⟩ := hoffers
        exact ⟨_, step_quiet hr ho, loopInv_quietTick h ho⟩

end Sys2Proof.Machine
end

section
/-! PROOFS. The SensorLoop's step lemma (O49). -/

namespace Sys2Proof.Machine

/-- Settles O49: at each stage of the loop the step has a next state that keeps the discipline (`exists_step_loopInv`), and every
next state keeps R38's invariant (`inv_step`). -/
theorem sensorLoopIsNeverRefused : Obligations.SensorLoopIsNeverRefused := by
  intro s hinv hloop
  obtain ⟨t, hstep, hloop'⟩ := exists_step_loopInv hloop
  exact ⟨t, hstep, inv_step hinv hstep, hloop'⟩

end Sys2Proof.Machine
end

section
/-! PROOFS. Support for the ColorModel's statements: the rounding, the sector and its fraction, p, q and t between p and v, and
the channels of a conversion by its sector's row (R153 to R160). -/

namespace Sys2Proof.Machine

variable {h s v f x : Nat}

/-! ## The rounding (R160) -/

theorem scale8_strictMono : StrictMono scale8 := by
  intro x y hxy
  unfold scale8 chMax
  omega

theorem scale8_le (h : x ≤ 100) : scale8 x ≤ 255 := scale8_strictMono.monotone h

/-- A scaled percent fits its eight bits (R81). -/
theorem scale8_toNat (h : x ≤ 100) : (BitVec.ofNat 8 (scale8 x)).toNat = scale8 x := by
  rw [BitVec.toNat_ofNat]
  exact Nat.mod_eq_of_lt (Nat.lt_succ_of_le (scale8_le h))

/-- The values below ten that the rounding omits (R174): it takes 0, 3, 5, 8 and then 10. -/
theorem scale8_ne_of_omitted {c : Nat} (hc : c ∈ [1, 2, 4, 6, 7, 9]) (x : Nat) : scale8 x ≠ c := by
  unfold scale8 chMax
  simp only [List.mem_cons, List.not_mem_nil, or_false] at hc
  omega

/-! ## The sector and its fraction (R153 to R155, R164) -/

theorem hueFraction_eq_mod (sh : Nat) : hueFraction sh = sh % 100 := by
  unfold hueFraction sectorBase
  omega

/-- A scaled hue is `div(5 * h, 3)`, so its last two digits are never 99. -/
theorem hueFraction_le (h : Nat) : hueFraction (scaledHue h) ≤ 98 := by
  rw [hueFraction_eq_mod, scaledHue]
  omega

theorem sectorOf_eq_div (h360 : h < 360) : sectorOf h = h / 60 := by
  have hbase : sectorBase (scaledHue h) / 100 = h / 60 := by
    rw [sectorBase, Nat.mul_div_cancel _ (by decide), scaledHue]
    omega
  rw [sectorOf, hbase]
  omega

/-! ## p, q and t (R156 to R158, R167) -/

/-- t is q at the complement of the fraction. -/
theorem tOf_eq_qOf (s v f : Nat) : tOf s v f = qOf s v (100 - f) := rfl

theorem pOf_le (s v : Nat) : pOf s v ≤ v :=
  Nat.div_le_of_le_mul (by rw [Nat.mul_comm]; exact Nat.mul_le_mul_right v (Nat.sub_le 100 s))

theorem qOf_le (s v f : Nat) : qOf s v f ≤ v :=
  Nat.div_le_of_le_mul (by rw [Nat.mul_comm]; exact Nat.mul_le_mul_right v (Nat.sub_le 1000 _))

theorem tOf_le (s v f : Nat) : tOf s v f ≤ v := qOf_le s v (100 - f)

/-- q is at least what it is for the fraction 100, which is p. -/
theorem pOf_le_qOf (hf : f ≤ 100) : pOf s v ≤ qOf s v f := by
  have hsf : s * f ≤ s * 100 := Nat.mul_le_mul_left s hf
  calc pOf s v = v * (10 * (100 - s)) / 1000 := by
        rw [pOf, Nat.mul_left_comm, show 1000 = 10 * 100 from rfl, Nat.mul_div_mul_left _ _ (by decide)]
    _ ≤ qOf s v f := Nat.div_le_div_right (Nat.mul_le_mul_left v (by omega))

theorem pOf_le_tOf (s v f : Nat) : pOf s v ≤ tOf s v f := pOf_le_qOf (Nat.sub_le 100 f)

/-- Without saturation p, q and t are all v (R171). -/
theorem pOf_zero (v : Nat) : pOf 0 v = v := Nat.mul_div_cancel v (by decide)

theorem qOf_zero (v f : Nat) : qOf 0 v f = v := by
  rw [qOf, Nat.zero_mul]
  exact Nat.mul_div_cancel v (by decide)

theorem tOf_zero (v f : Nat) : tOf 0 v f = v := qOf_zero v (100 - f)

/-! ## The sector's row (R159) -/

/-- What holds of v, p, q and t holds of the three channels of every row. -/
theorem sectorRow_forall {P : Nat → Prop} {p q t : Nat} (hv : P v) (hp : P p) (hq : P q) (ht : P t) (n : Nat) :
    P (sectorRow n v p q t).1 ∧ P (sectorRow n v p q t).2.1 ∧ P (sectorRow n v p q t).2.2 := by
  match n with
  | 0 => exact ⟨hv, ht, hp⟩
  | 1 => exact ⟨hq, hv, hp⟩
  | 2 => exact ⟨hp, hv, ht⟩
  | 3 => exact ⟨hp, hq, hv⟩
  | 4 => exact ⟨ht, hp, hv⟩
  | _ + 5 => exact ⟨hv, hp, hq⟩

/-- Every channel, in percent units, lies between p and v (R167). -/
theorem chromaticRow_between (h s v : Nat) :
    (pOf s v ≤ (chromaticRow h s v).1 ∧ (chromaticRow h s v).1 ≤ v) ∧
    (pOf s v ≤ (chromaticRow h s v).2.1 ∧ (chromaticRow h s v).2.1 ≤ v) ∧
    (pOf s v ≤ (chromaticRow h s v).2.2 ∧ (chromaticRow h s v).2.2 ≤ v) :=
  have hf : hueFraction (scaledHue h) ≤ 100 := (hueFraction_le h).trans (by decide)
  sectorRow_forall (P := fun x => pOf s v ≤ x ∧ x ≤ v) ⟨pOf_le s v, le_rfl⟩ ⟨le_rfl, pOf_le s v⟩
    ⟨pOf_le_qOf hf, qOf_le s v _⟩ ⟨pOf_le_tOf s v _, tOf_le s v _⟩ (sectorOf h)

theorem chromaticRow_achromatic (h v : Nat) : chromaticRow h 0 v = (v, v, v) := by
  rw [chromaticRow, pOf_zero, qOf_zero, tOf_zero]
  obtain ⟨hr, hg, hb⟩ := sectorRow_forall (P := (· = v)) rfl rfl rfl rfl (sectorOf h)
  exact Prod.ext hr (Prod.ext hg hb)

/-- R171: the general formula serves both branches. -/
theorem hsvToRgb_eq_scalePixel (h s v : Nat) : hsvToRgb h s v = scalePixel (chromaticRow h s v) := by
  unfold hsvToRgb
  split
  case isTrue hs => rw [hs, chromaticRow_achromatic]
  case isFalse => rfl

/-- Each channel of a conversion is the scaled percent of the row. -/
theorem hsvToRgb_toNat (h s : Nat) (hv : v ≤ 100) :
    (hsvToRgb h s v).r.toNat = scale8 (chromaticRow h s v).1 ∧
    (hsvToRgb h s v).g.toNat = scale8 (chromaticRow h s v).2.1 ∧
    (hsvToRgb h s v).b.toNat = scale8 (chromaticRow h s v).2.2 := by
  obtain ⟨⟨-, hr⟩, ⟨-, hg⟩, -, hb⟩ := chromaticRow_between h s v
  rw [hsvToRgb_eq_scalePixel]
  exact ⟨scale8_toNat (hr.trans hv), scale8_toNat (hg.trans hv), scale8_toNat (hb.trans hv)⟩

/-- R152: without saturation every channel is scaled v. -/
theorem hsvToRgb_toNat_achromatic (h : Nat) (hv : v ≤ 100) :
    (hsvToRgb h 0 v).r.toNat = scale8 v ∧ (hsvToRgb h 0 v).g.toNat = scale8 v ∧ (hsvToRgb h 0 v).b.toNat = scale8 v := by
  have hrow := hsvToRgb_toNat h 0 hv
  rwa [chromaticRow_achromatic] at hrow

/-- The channels in a given sector: v, p, q and t where R159's row for it has them. -/
theorem hsvToRgb_toNat_of_sector {n : Nat} (hn : sectorOf h = n) (s : Nat) (hv : v ≤ 100) :
    let f := hueFraction (scaledHue h)
    let row := sectorRow n v (pOf s v) (qOf s v f) (tOf s v f)
    (hsvToRgb h s v).r.toNat = scale8 row.1 ∧ (hsvToRgb h s v).g.toNat = scale8 row.2.1 ∧
      (hsvToRgb h s v).b.toNat = scale8 row.2.2 :=
  hn ▸ hsvToRgb_toNat h s hv

/-- Every channel lies between scaled p and scaled v (R167). -/
theorem hsvToRgb_between (h s : Nat) (hv : v ≤ 100) :
    (scale8 (pOf s v) ≤ (hsvToRgb h s v).r.toNat ∧ (hsvToRgb h s v).r.toNat ≤ scale8 v) ∧
    (scale8 (pOf s v) ≤ (hsvToRgb h s v).g.toNat ∧ (hsvToRgb h s v).g.toNat ≤ scale8 v) ∧
    (scale8 (pOf s v) ≤ (hsvToRgb h s v).b.toNat ∧ (hsvToRgb h s v).b.toNat ≤ scale8 v) := by
  have hmono := scale8_strictMono.monotone
  obtain ⟨⟨hpr, hrv⟩, ⟨hpg, hgv⟩, hpb, hbv⟩ := chromaticRow_between h s v
  obtain ⟨hr, hg, hb⟩ := hsvToRgb_toNat h s hv
  rw [hr, hg, hb]
  exact ⟨⟨hmono hpr, hmono hrv⟩, ⟨hmono hpg, hmono hgv⟩, hmono hpb, hmono hbv⟩

/-- In each sector one channel carries p: blue in 0 and 1, red in 2 and 3, green in 4 and 5 (R159, R167). -/
theorem hsvToRgb_lowest (h s : Nat) (hv : v ≤ 100) :
    (sectorOf h = 0 ∨ sectorOf h = 1 → (hsvToRgb h s v).b.toNat = scale8 (pOf s v)) ∧
    (sectorOf h = 2 ∨ sectorOf h = 3 → (hsvToRgb h s v).r.toNat = scale8 (pOf s v)) ∧
    (sectorOf h = 4 ∨ sectorOf h = 5 → (hsvToRgb h s v).g.toNat = scale8 (pOf s v)) := by
  refine ⟨?_, ?_, ?_⟩ <;> rintro (hn | hn) <;> obtain ⟨hr, hg, hb⟩ := hsvToRgb_toNat_of_sector hn s hv
  · exact hb
  · exact hb
  · exact hr
  · exact hr
  · exact hg
  · exact hg

/-- In each sector one channel is pinned to v: red in 0 and 5, green in 1 and 2, blue in 3 and 4 (R159, R166). -/
theorem hsvToRgb_pinned (h s : Nat) (hv : v ≤ 100) :
    (sectorOf h = 0 ∨ sectorOf h = 5 → (hsvToRgb h s v).r.toNat = scale8 v) ∧
    (sectorOf h = 1 ∨ sectorOf h = 2 → (hsvToRgb h s v).g.toNat = scale8 v) ∧
    (sectorOf h = 3 ∨ sectorOf h = 4 → (hsvToRgb h s v).b.toNat = scale8 v) := by
  refine ⟨?_, ?_, ?_⟩ <;> rintro (hn | hn) <;> obtain ⟨hr, hg, hb⟩ := hsvToRgb_toNat_of_sector hn s hv
  · exact hr
  · exact hr
  · exact hg
  · exact hg
  · exact hb
  · exact hb

end Sys2Proof.Machine
end

section
/-! PROOFS. The ColorModel's statements: the order of p, q, t and v (O41), R163's bounds (O42), the omitted channel values (O45),
the conversion written out (O52), HSV2RGB and its refusal (O7, O10), the rounding (O37), and R166's, R169's, R170's and R171's
particular cases (O38, O39, O40, O43, O44). -/

namespace Sys2Proof.Machine

/-- Settles O41: p, q and t are ordered by the fraction, the rounding keeps the order, and R159's row says which channel has p. -/
theorem intermediatesAreOrdered : Obligations.IntermediatesAreOrdered := by
  intro h s v _ _ _ hv f c
  have hf : f ≤ 100 := (hueFraction_le h).trans (by decide)
  obtain ⟨⟨hpr, hrv⟩, ⟨hpg, hgv⟩, hpb, hbv⟩ := hsvToRgb_between h s hv
  obtain ⟨hblue, hred, hgreen⟩ := hsvToRgb_lowest h s hv
  refine ⟨pOf_le_qOf hf, qOf_le s v f, pOf_le_tOf s v f, tOf_le s v f, hrv, hgv, hbv, ?_, ?_, ?_⟩
  · exact fun hn => ⟨hblue hn, (hblue hn).trans_le hpr, (hblue hn).trans_le hpg⟩
  · exact fun hn => ⟨hred hn, (hred hn).trans_le hpg, (hred hn).trans_le hpb⟩
  · exact fun hn => ⟨hgreen hn, (hgreen hn).trans_le hpr, (hgreen hn).trans_le hpb⟩

/-- Settles O42: the products are bounded by the products of their factors' bounds, the rest is linear in them, and none exceeds
100000, which fits INT_W signed bits in every valid choice of the parameters. -/
theorem intermediatesStayInBounds : Obligations.IntermediatesStayInBounds := by
  intro h s v hh hs1 hs hv sh f
  have hsh : sh ≤ 598 := by simp only [sh, scaledHue]; omega
  have hbase : sectorBase sh ≤ 500 := by rw [sectorBase]; omega
  have hf : f ≤ 98 := hueFraction_le h
  have hsf : s * f ≤ 100 * 98 := Nat.mul_le_mul hs hf
  have hsg1 : 1 * 2 ≤ s * (100 - f) := Nat.mul_le_mul hs1 (by omega)
  have hsg : s * (100 - f) ≤ 100 * 100 := Nat.mul_le_mul hs (Nat.sub_le 100 f)
  have hvp : v * (100 - s) ≤ 100 * 99 := Nat.mul_le_mul hv (by omega)
  have hvq : v * (1000 - s * f / 10) ≤ 100 * 1000 := Nat.mul_le_mul hv (Nat.sub_le 1000 _)
  have hvt : v * (1000 - s * (100 - f) / 10) ≤ 100 * 1000 := Nat.mul_le_mul hv (Nat.sub_le 1000 _)
  have hp : pOf s v ≤ 99 := Nat.div_le_div_right (c := 100) hvp
  have hq : qOf s v f ≤ 100 := (qOf_le s v f).trans hv
  have ht : tOf s v f ≤ 100 := (tOf_le s v f).trans hv
  have hscale : ∀ x, x ≤ 100 → scale8 x ≤ 255 := fun x => scale8_le
  refine ⟨by omega, hsh, hbase, hf, hsf, by omega, by omega, by omega, hsg1, hsg, by omega, by omega, by omega, by omega,
    hvp, hvq, hvt, hp, hq, ht, fun x hx => ⟨by omega, by omega, hscale x hx⟩, fun c hc => ?_⟩
  obtain ⟨-, -, -, -, hwidth, -⟩ := hc
  refine ⟨?_, fun x hx => ⟨by omega, (hscale x hx).trans_lt (by omega)⟩⟩
  simp only [List.forall_mem_cons, List.not_mem_nil, false_imp_iff, implies_true, and_true]
  omega

/-- Settles O45: a strictly increasing rounding is one-to-one, and each channel is a value of it. -/
theorem noConversionGivesChannelFour : Obligations.NoConversionGivesChannelFour := by
  refine ⟨fun x y _ _ hxy => scale8_strictMono.injective hxy, fun h s v _ _ hv c hc => ?_⟩
  obtain ⟨hr, hg, hb⟩ := hsvToRgb_toNat h s hv
  rw [hr, hg, hb]
  exact ⟨scale8_ne_of_omitted hc _, scale8_ne_of_omitted hc _, scale8_ne_of_omitted hc _⟩

/-- Settles O52: the range of the hue is its sector, and the sector's row puts v, p, q and t on the channels. -/
theorem conversionWrittenOut : Obligations.ConversionWrittenOut := by
  intro h s v hh _ hv f p q t c shows
  have hsector : sectorOf h = h / 60 := sectorOf_eq_div hh
  refine ⟨?_, ?_, ?_, ?_, ?_, ?_, ?_⟩
  · rintro rfl
    exact hsvToRgb_toNat_achromatic h hv
  · exact fun _ _ => hsvToRgb_toNat_of_sector (n := 0) (by omega) s hv
  · exact fun _ _ _ => hsvToRgb_toNat_of_sector (n := 1) (by omega) s hv
  · exact fun _ _ _ => hsvToRgb_toNat_of_sector (n := 2) (by omega) s hv
  · exact fun _ _ _ => hsvToRgb_toNat_of_sector (n := 3) (by omega) s hv
  · exact fun _ _ _ => hsvToRgb_toNat_of_sector (n := 4) (by omega) s hv
  · exact fun _ _ => hsvToRgb_toNat_of_sector (n := 5) (by omega) s hv

/-- Settles O7: in IDLE the command is accepted, and on domain operands its effect is `loadColor`. -/
theorem hsv2rgbLoadsColor : Obligations.Hsv2rgbLoadsColor := fun _ h sat val hp hh hs hv =>
  (execHsv2rgb_idle hp h sat val).trans (if_pos (hsvInDomain_iff.mpr ⟨hh, hs, hv⟩))

/-- Settles O10: in IDLE the command is accepted, and outside the domain it is refused. -/
theorem hsvOutOfDomainRefused : Obligations.HsvOutOfDomainRefused := fun _ _ _ _ hp hdom =>
  exec_hsv2rgb_outOfDomain hp hdom

/-- Settles O37: the bounds of a division's remainder; the seven values are evaluated. -/
theorem scaleRoundsHalfUp : Obligations.ScaleRoundsHalfUp := by
  refine ⟨fun x hx => ?_, fun x y hxy _ => scale8_strictMono hxy, by decide⟩
  have hle := scale8_le hx
  unfold scale8 chMax at hle ⊢
  omega

/-- Settles O38: without saturation the row is (v, v, v). -/
theorem achromaticIgnoresHue : Obligations.AchromaticIgnoresHue := fun h _ _ hv => hsvToRgb_toNat_achromatic h hv

/-- Settles O39: each formula at s = 0 is v times a whole divided by that whole. -/
theorem shortcutAgreesWithFormula : Obligations.ShortcutAgreesWithFormula := fun h v _ _ =>
  ⟨pOf_zero v, qOf_zero v _, tOf_zero v _, chromaticRow_achromatic h v⟩

/-- Settles O40: R159's row has v on the sector's pinned channel. -/
theorem pinnedChannelCarriesValue : Obligations.PinnedChannelCarriesValue := fun h s _ _ _ _ hv => hsvToRgb_pinned h s hv

/-- Settles O43: a hue's scaled hue is `div(5 * h, 3)`; 60 hues are 100 steps of it. -/
theorem sectorIsSixtyDegrees : Obligations.SectorIsSixtyDegrees := by
  constructor
  · intro h hh
    have hsector := sectorOf_eq_div hh
    exact ⟨hsector, by omega⟩
  · intro n hn
    rw [sectorOf_eq_div (by omega), sectorOf_eq_div (by omega), hueFraction_eq_mod, hueFraction_eq_mod, scaledHue, scaledHue]
    omega

/-- Settles O44: the row's channels are at most v, so all three are 0. -/
theorem zeroValueIsBlack : Obligations.ZeroValueIsBlack := by
  intro h s _ _
  obtain ⟨⟨-, hr⟩, ⟨-, hg⟩, -, hb⟩ := chromaticRow_between h s 0
  have hrow : chromaticRow h s 0 = (0, 0, 0) :=
    Prod.ext (Nat.le_zero.mp hr) (Prod.ext (Nat.le_zero.mp hg) (Nat.le_zero.mp hb))
  rw [hsvToRgb_eq_scalePixel, hrow]
  rfl

end Sys2Proof.Machine
end

section
/-! PROOFS. Support for the host's other statements: what SAMPLE_HUE and LOOP_ITER give (R192 to R195), the host's move from Idle
and while sampling (R191, R192, R200), who writes LAST_HUE (R197), and the boot wait's invariant tick by tick (R200, R254). -/

namespace Sys2Proof.Machine

variable {s t : State} {e : Env} {hue : Nat}

/-! ## SAMPLE_HUE and LOOP_ITER (R192 to R195, R206) -/

/-- A conversion has ten bits (R83). -/
theorem sum_conversions_le (conversions : List (BitVec 10)) :
    (conversions.map BitVec.toNat).sum ≤ conversions.length * 1023 := by
  have hle : ∀ x ∈ conversions.map BitVec.toNat, x ≤ 1023 := by
    intro x hx
    obtain ⟨v, -, rfl⟩ := List.mem_map.mp hx
    exact Nat.le_of_lt_succ v.isLt
  simpa using List.sum_le_card_nsmul _ _ hle

/-- The hue map reaches 360 at raw 1000, where the clip takes over (R193, R194). -/
theorem clipHue_mapHue (raw : Nat) : clipHue (mapHue raw) = if 1000 ≤ raw then 0 else raw * 6 / 25 + 120 := by
  unfold clipHue mapHue hueMul hueDiv hueOff
  split <;> split <;> omega

theorem loopIter_commands (lastHue hue : Nat) :
    (loopIter lastHue hue).1 = if hue = lastHue then [] else [.hsv2rgb (BitVec.ofNat 9 hue) 100 20, .write] :=
  ite_not _ _ _

/-- Each iteration compares its hue with the one before it, since every iteration leaves its hue in LAST_HUE (R195, R197). -/
theorem loopRun_getElem? {hues : List Nat} {k : Nat} (h : hues[k]? = some hue) (lastHue : Nat) :
    (loopRun lastHue hues)[k]? = some (loopIter (if k = 0 then lastHue else hues.getD (k - 1) 0) hue).1 := by
  induction hues generalizing lastHue k with
  | nil => cases h
  | cons first rest ih =>
    cases k with
    | zero => cases h; rfl
    | succ k =>
      have hprev : (if k = 0 then first else rest.getD (k - 1) 0) = (first :: rest).getD k 0 := by cases k <;> rfl
      rw [loopRun, List.getElem?_cons_succ, ih h]
      exact congrArg (fun previous => some (loopIter previous hue).1) hprev

/-! ## The discipline, and what it says of Idle (R190, R191) -/

theorem loopInv_step (h : LoopInv s) (hstep : step s = .next t) : LoopInv t := by
  obtain ⟨u, hu, hloop⟩ := exists_step_loopInv h
  cases hu.symm.trans hstep
  exact hloop

theorem loopInv_idle (h : LoopInv s) (hl : s.env.loopState = .idle) :
    ∃ sensor, s.env.driver = .sensorLoop sensor ∧ s.env.offer = .quiet ∧ s.regs.phase = .idle := by
  obtain ⟨sensor, hd, -, hoffers⟩ := loopInv_iff.mp h
  rw [hl] at hoffers
  exact ⟨sensor, hd, hoffers⟩

/-- In Idle a tick without reset is the idle core's (R191). -/
theorem step_loopIdle (h : LoopInv s) (hr : s.env.rst = false) (hl : s.env.loopState = .idle) :
    step s = .next (hostMove false (idleTick s)) := by
  obtain ⟨-, -, ho, hp⟩ := loopInv_idle h hl
  exact step_idle_quiet hr hp ho

/-! ## The host's move from Idle (R191, R199, R200, R207) -/

/-- While more than this tick of the boot wait is left, the loop stays Idle. -/
theorem hostEnv_idle_bootWait (hd : e.driver = .sensorLoop .adc) (hl : e.loopState = .idle) (hb : 1 < e.bootLeft)
    (accepted ready : Bool) : hostEnv accepted ready e = nextInputs e := by
  rw [hostEnv_idle hd hl, if_pos (staysIdle_adc.mpr (by omega))]

/-- The boot wait over, the loop leaves Idle. -/
theorem hostEnv_idle_bootOver (hd : e.driver = .sensorLoop .adc) (hl : e.loopState = .idle) (hb : e.bootLeft ≤ 1)
    (accepted ready : Bool) :
    hostEnv accepted ready e = { nextInputs e with loopState := .sampling (.convert []) } := by
  rw [hostEnv_idle hd hl, if_neg (by rw [staysIdle_adc]; omega)]

theorem hostEnv_idle_fake {hues : List Nat} (hd : e.driver = .sensorLoop (.fake hues)) (hl : e.loopState = .idle)
    (accepted ready : Bool) :
    hostEnv accepted ready e =
      if hues = [] then nextInputs e else { nextInputs e with loopState := .sampling (.convert []) } := by
  rw [hostEnv_idle hd hl]
  cases hues <;> rfl

/-! ## The host's move while sampling (R192, R195, R201) -/

theorem sampleMove_adc_busy {draw : Nat} (h : Config.adcBusy draw = true) (got : List (BitVec 10)) (e : Env) :
    sampleMove draw got .adc e = e := if_pos h

theorem sampleMove_adc_done {draw : Nat} (h : Config.adcBusy draw = false) (got : List (BitVec 10)) (e : Env) :
    sampleMove draw got .adc e = gatherConversions (got ++ [Config.adcResult draw]) e := by
  rw [sampleMove, h]; rfl

theorem gatherConversions_fewer {got : List (BitVec 10)} (h : got.length < 10) (e : Env) :
    gatherConversions got e = { e with loopState := .sampling (.convert got) } := if_pos h

theorem gatherConversions_ten {got : List (BitVec 10)} (h : 10 ≤ got.length) (e : Env) :
    gatherConversions got e = decideRender (sampleHue got) e := if_neg h.not_gt

theorem decideRender_driver (hue : Nat) (e : Env) : (decideRender hue e).driver = e.driver := by
  unfold decideRender
  split <;> rfl

/-- The comparison as the statements speak of it, when the step's move was `decideRender` (R195). -/
theorem rendersOnChange_of_decideRender (ht : t.env = decideRender hue e) (hlast : e.lastHue = s.env.lastHue) :
    RendersOnChange s t hue := by
  rw [RendersOnChange, ht, ← hlast]
  constructor
  · intro hchange
    rw [decideRender_changed hchange]
    exact ⟨rfl, rfl, rfl⟩
  · intro hsame
    rw [decideRender_unchanged hsame]
    exact ⟨rfl, rfl, rfl⟩

/-! ## Who writes LAST_HUE (R195, R197) -/

/-- A tick without reset leaves the surroundings as the host's move does (R190). -/
theorem step_env (hr : s.env.rst = false) (h : step s = .next t) :
    ∃ accepted, t.env = hostEnv accepted (cmdReady t.regs) s.env := by
  obtain ⟨hrst, -⟩ | ⟨-, -, -, rfl⟩ | ⟨-, hp, w, i, u, -, hd, he, rfl⟩ | ⟨-, -, rfl⟩ | ⟨-, -, rfl⟩ := step_cases h
  · rw [hr] at hrst; cases hrst
  · exact ⟨false, rfl⟩
  · exact ⟨true, by rw [hostMove_env, hostMove_regs, exec_command_idle_env hp (decode_isCommand hd) he]⟩
  · exact ⟨false, rfl⟩
  · exact ⟨false, by rw [hostMove_env, hostMove_regs, latchTick_env]⟩

theorem decideRender_lastHue_or_idle (hue : Nat) (e : Env) :
    (decideRender hue e).lastHue = e.lastHue ∨ (decideRender hue e).loopState = .idle := by
  unfold decideRender
  split
  · exact .inl rfl
  · exact .inr rfl

theorem sampleMove_lastHue_or_idle (draw : Nat) (got : List (BitVec 10)) (sensor : Sensor) (e : Env) :
    (sampleMove draw got sensor e).lastHue = e.lastHue ∨ (sampleMove draw got sensor e).loopState = .idle := by
  match sensor with
  | .adc =>
    cases hb : Config.adcBusy draw with
    | true => exact .inl (by rw [sampleMove_adc_busy hb])
    | false =>
      rw [sampleMove_adc_done hb]
      rcases lt_or_ge (got ++ [Config.adcResult draw]).length 10 with hlen | hlen
      · exact .inl (by rw [gatherConversions_fewer hlen])
      · rw [gatherConversions_ten hlen]
        exact decideRender_lastHue_or_idle _ e
  | .fake [] => exact .inl rfl
  | .fake (hue :: rest) => exact decideRender_lastHue_or_idle hue _

/-- Of the loop's stages only two write LAST_HUE, the comparison and the wait for `busy` to fall, and both then go to Idle. -/
theorem loopMove_lastHue_or_ends (draw : Nat) (accepted ready : Bool) (sensor : Sensor) (e : Env) :
    (loopMove draw accepted ready sensor e).lastHue = e.lastHue ∨
      e.loopState ≠ .idle ∧ (loopMove draw accepted ready sensor e).loopState = .idle := by
  unfold loopMove
  cases e.loopState with
  | idle => left; dsimp only; split <;> rfl
  | sampling stage =>
    cases stage with
    | convert got => exact (sampleMove_lastHue_or_idle draw got sensor e).imp_right fun hidle => ⟨nofun, hidle⟩
    | issueColor hue => left; dsimp only; split <;> rfl
    | issueWrite hue => left; dsimp only; split <;> rfl
    | awaitWrite hue =>
      cases ready with
      | true => exact .inr ⟨nofun, rfl⟩
      | false => exact .inl rfl

/-- A host that writes LAST_HUE is the SensorLoop at an iteration's end; a test bench never writes it. -/
theorem hostEnv_lastHue_or_ends (accepted ready : Bool) (e : Env) :
    (hostEnv accepted ready e).lastHue = e.lastHue ∨
      (∃ sensor, e.driver = .sensorLoop sensor) ∧ e.loopState ≠ .idle ∧ (hostEnv accepted ready e).loopState = .idle := by
  unfold hostEnv
  cases e.driver with
  | sensorLoop sensor =>
    exact (loopMove_lastHue_or_ends e.draws accepted ready sensor (nextInputs e)).imp_right fun hends =>
      ⟨⟨sensor, rfl⟩, hends⟩
  | bench agenda => exact .inl (benchMove_lastHue accepted agenda (nextInputs e))

/-! ## The boot wait (R200, R254) -/

@[simp] theorem benchMove_bootLeft (accepted : Bool) (agenda : List Offer) (e : Env) :
    (benchMove accepted agenda e).bootLeft = e.bootLeft := by
  unfold benchMove
  split <;> rfl

theorem resetEnv_bootLeft (c : Config) (e : Env) : (resetEnv c e).bootLeft = c.bootTicks := by
  cases h : e.driver <;> simp [resetEnv, h]

theorem resetEnv_driver_sensorLoop {sensor : Sensor} (hd : e.driver = .sensorLoop sensor) (c : Config) :
    (resetEnv c e).driver = .sensorLoop sensor := by
  rw [resetEnv, hd]
  exact hd

theorem firstGapHeld_iff :
    firstGapHeld s = true ↔ s.cfg.nReset ≤ (s.obs.w.takeWhile fun level => level = false).length := decide_eq_true_iff

/-- A line low since reset has been low for all its ticks. -/
theorem firstGapHeld_of_low (hlow : ∀ level ∈ s.obs.w, level = false) (h : s.cfg.nReset ≤ s.obs.w.length) :
    firstGapHeld s = true := by
  rw [firstGapHeld_iff, List.takeWhile_eq_self_iff.mpr fun level hmem => decide_eq_true (hlow level hmem)]
  exact h

/-- The first gap, once held, stays held: a tick without reset adds its level behind it. -/
theorem firstGapHeld_step (hr : s.env.rst = false) (hstep : step s = .next t) (h : firstGapHeld s = true) :
    firstGapHeld t = true := by
  rw [firstGapHeld_iff] at h ⊢
  rw [step_w hr hstep, parametersNeverChange s t hstep, List.takeWhile_append]
  split
  · next hall =>
    rw [List.length_append]
    omega
  · exact h

/-- A reset tick starts the boot wait, which valid parameters make long enough (logs 10, 20, 25). -/
theorem bootInv_resetTick (hc : s.cfg.Valid) (hd : s.env.driver = .sensorLoop .adc) : BootInv (resetTick s) := by
  obtain ⟨-, -, -, -, -, -, hboot⟩ := hc
  refine ⟨resetEnv_driver_sensorLoop hd s.cfg, .inr ⟨resetEnv_loopState _ _, nofun, ?_⟩⟩
  rw [resetTick_env, resetEnv_bootLeft]
  exact hboot.trans (Nat.le_add_left _ _)

/-- A tick of Idle with the line low since reset: the tick is low, so it stands in for the tick of the wait that has passed; and
when the loop leaves Idle no tick of the wait was needed after it. -/
theorem bootInv_idleMove (hd : s.env.driver = .sensorLoop .adc) (hl : s.env.loopState = .idle)
    (hlow : ∀ level ∈ s.obs.w, level = false) (hcover : s.cfg.nReset ≤ s.obs.w.length + s.env.bootLeft) :
    BootInv (hostMove false (idleTick s)) := by
  have hw : (hostMove false (idleTick s)).obs.w = s.obs.w ++ [false] := rfl
  have hlow' : ∀ level ∈ (hostMove false (idleTick s)).obs.w, level = false := by
    rw [hw]
    exact List.forall_mem_append.mpr ⟨hlow, List.forall_mem_singleton.mpr rfl⟩
  have hlen : (hostMove false (idleTick s)).obs.w.length = s.obs.w.length + 1 := by rw [hw, List.length_append]; rfl
  have hcfg : (hostMove false (idleTick s)).cfg = s.cfg := rfl
  refine ⟨hostEnv_driver_adc hd _ _, ?_⟩
  rcases le_or_gt s.env.bootLeft 1 with hb | hb
  · exact .inl (firstGapHeld_of_low hlow' (by rw [hlen, hcfg]; omega))
  · have henv : (hostMove false (idleTick s)).env = nextInputs s.env := hostEnv_idle_bootWait hd hl hb _ _
    exact .inr ⟨by rw [henv]; exact hl, hlow', by rw [hlen, hcfg, henv, nextInputs_bootLeft]; omega⟩

/-- Every step keeps the boot wait's invariant: reset starts it over, a gap once held stays held, and before that the loop is
Idle on an idle core. -/
theorem bootInv_step (hc : s.cfg.Valid) (hloop : LoopInv s) (hboot : BootInv s) (hstep : step s = .next t) : BootInv t := by
  obtain ⟨hd, hgap⟩ := hboot
  cases hr : s.env.rst with
  | true =>
    cases (step_reset hr).symm.trans hstep
    exact bootInv_resetTick hc hd
  | false =>
    obtain hheld | ⟨hl, hlow, hcover⟩ := hgap
    · obtain ⟨accepted, henv⟩ := step_env hr hstep
      exact ⟨by rw [henv]; exact hostEnv_driver_adc hd _ _, .inl (firstGapHeld_step hr hstep hheld)⟩
    · cases (step_loopIdle hloop hr hl).symm.trans hstep
      exact bootInv_idleMove hd hl hlow hcover

/-- The SensorLoop makes the core busy only after the first gap: before, it is Idle and the core in IDLE. -/
theorem firstGapHeld_of_busy (hloop : LoopInv s) (hboot : BootInv s) (hp : s.regs.phase ≠ .idle) : firstGapHeld s = true := by
  obtain ⟨-, hheld | ⟨hl, -⟩⟩ := hboot
  · exact hheld
  · obtain ⟨-, -, -, hidle⟩ := loopInv_idle hloop hl
    exact absurd hidle hp

/-- The rest of the boot wait in one run, by induction on its ticks after the first. -/
theorem runSteps_bootWait {n : Nat} (hloop : LoopInv s) (hd : s.env.driver = .sensorLoop .adc)
    (hl : s.env.loopState = .idle) (hn : max 1 s.env.bootLeft = n + 1) (hrst : RstLowFor (n + 1) s.env) :
    ∃ t, runSteps (n + 1) s = .next t ∧ t.env.loopState = .sampling (.convert []) ∧ t.regs = s.regs ∧
      t.env.lastHue = s.env.lastHue ∧ t.env.offer = .quiet ∧ t.env.driver = .sensorLoop .adc := by
  induction n generalizing s with
  | zero =>
    obtain ⟨-, -, ho, -⟩ := loopInv_idle hloop hl
    refine ⟨_, runSteps_succ_of_next (step_loopIdle hloop (rst_of_rstLowFor hrst) hl), ?_⟩
    rw [hostMove_env, idleTick_env, hostEnv_idle_bootOver hd hl (by omega)]
    exact ⟨rfl, rfl, rfl, ho, hd⟩
  | succ n ih =>
    have hstep := step_loopIdle hloop (rst_of_rstLowFor hrst) hl
    have henv : (hostMove false (idleTick s)).env = nextInputs s.env := hostEnv_idle_bootWait hd hl (by omega) _ _
    have hleft : (nextInputs s.env).bootLeft = s.env.bootLeft - 1 := rfl
    obtain ⟨t, hrun, hstate, hregs, hlast, hquiet⟩ := ih (loopInv_step hloop hstep) (by rw [henv]; exact hd)
      (by rw [henv]; exact hl) (by rw [henv, hleft]; omega) (rstLowFor_hostEnv hrst _ _)
    rw [henv] at hlast
    exact ⟨t, (runSteps_succ_of_next hstep).trans hrun, hstate, hregs, hlast, hquiet⟩

end Sys2Proof.Machine
end

section
/-! PROOFS. The host's statements: the boot wait before the first frame (O56, O57, O58), SAMPLE_HUE and LOOP_ITER (O46, O47), the
loop in the step from Idle (O53), while sampling (O54) and through a render (O48), and who writes LAST_HUE (O55). -/

namespace Sys2Proof.Machine

/-- Settles O56: the step keeps the boot wait's invariant and the loop's discipline, which together let a core be busy only
after the first gap. -/
theorem bootWaitCoversFirstGap : Obligations.BootWaitCoversFirstGap := by
  intro s t hinv hloop hboot hstep
  have hboot' : BootInv t := bootInv_step hinv.cfg_valid hloop hboot hstep
  exact ⟨hboot', fun hp => firstGapHeld_iff.mp (firstGapHeld_of_busy (loopInv_step hloop hstep) hboot' hp)⟩

/-- Settles O46: the sum is bounded by ten times a conversion's bound, and the clip's threshold is raw 1000. -/
theorem sampledHueIsAHue : Obligations.SampledHueIsAHue := by
  intro conversions hten raw
  have hsum := sum_conversions_le conversions
  have hraw : raw = (conversions.map BitVec.toNat).sum / 10 := rfl
  have hmap : mapHue raw = raw * 6 / 25 + 120 := rfl
  have hhue : sampleHue conversions = if 1000 ≤ raw then 0 else raw * 6 / 25 + 120 := clipHue_mapHue raw
  rw [hten] at hsum
  refine ⟨hraw, by omega, by omega, by omega, by omega, by omega, ?_⟩
  rw [hhue]
  split <;> omega

/-- Settles O47: an iteration compares its hue with the one before it (`loopRun_getElem?`) and issues what LOOP_ITER says. -/
theorem loopRendersExactlyOnChange : Obligations.LoopRendersExactlyOnChange := by
  intro last hues k hue hk
  rw [loopRun_getElem? hk, loopIter_commands]

/-- Settles O48: the conversion and WRITE are legal commands offered to an idle core; the wait ends when `cmd_ready` says that
`busy` has fallen. -/
theorem renderRunsConversionThenWrite : Obligations.RenderRunsConversionThenWrite := by
  intro s hue hloop hr
  obtain ⟨sensor, hd, -, hoffers⟩ := loopInv_iff.mp hloop
  refine ⟨fun hl => ?_, fun hl => ?_, fun hl => ?_⟩
  · rw [hl] at hoffers
    obtain ⟨ho, hhue, hp⟩ := hoffers
    refine ⟨_, step_renderWord hr hp ho hhue, rfl, rfl, ?_⟩
    rw [hostMove_env, loadColor_env, hostEnv_issueColor_accepted hd hl]
    exact ⟨rfl, rfl, rfl⟩
  · rw [hl] at hoffers
    obtain ⟨ho, -, hp, hv⟩ := hoffers
    refine ⟨_, step_write hr hp hv (by rw [ho]; rfl) decode_encodeWrite, rfl, rfl, ?_⟩
    rw [hostMove_env, startFrame_env, hostEnv_issueWrite_accepted hd hl]
    exact ⟨rfl, rfl, rfl⟩
  · rw [hl] at hoffers
    obtain ⟨ho, -⟩ := hoffers
    refine ⟨_, step_quiet hr ho, ?_⟩
    rw [hostMove_env, hostMove_regs, sequencerTick_env, hostEnv_awaitWrite hd hl]
    constructor
    · intro hp
      rw [if_pos (cmdReady_iff.mpr hp)]
      exact ⟨rfl, rfl, rfl⟩
    · intro hp
      rw [if_neg (mt cmdReady_iff.mp hp)]
      exact ⟨hl, rfl⟩

/-- Settles O53: an idle core's tick and the host's move from Idle, by the sensor and the ticks left of the boot wait. -/
theorem idleWaitsThenSamples : Obligations.IdleWaitsThenSamples := by
  intro s hloop hr hl
  obtain ⟨sensor, hd, ho, -⟩ := loopInv_idle hloop hl
  refine ⟨_, step_loopIdle hloop hr hl, rfl, ?_⟩
  rw [hostMove_env, idleTick_env, hd]
  cases sensor with
  | adc =>
    rcases le_or_gt s.env.bootLeft 1 with hb | hb
    · rw [hostEnv_idle_bootOver hd hl hb]
      exact ⟨ho, rfl, rfl, fun _ hlong => absurd hlong hb.not_gt, fun _ _ => rfl, nofun⟩
    · rw [hostEnv_idle_bootWait hd hl hb]
      exact ⟨ho, rfl, rfl, fun _ _ => hl, fun _ hshort => absurd hb hshort.not_gt, nofun⟩
  | fake hues =>
    rw [hostEnv_idle_fake hd hl]
    cases hues with
    | nil => exact ⟨ho, rfl, rfl, nofun, nofun, by rintro _ ⟨⟩; exact hl⟩
    | cons hue rest => exact ⟨ho, rfl, rfl, nofun, nofun, by rintro _ ⟨⟩; rfl⟩

/-- Settles O54: an idle core's tick and the host's move while sampling, by the sensor, the poll and how many conversions there
are. -/
theorem stepRendersExactlyOnChange : Obligations.StepRendersExactlyOnChange := by
  intro s got hloop hr hl
  obtain ⟨sensor, hd, -, hoffers⟩ := loopInv_iff.mp hloop
  rw [hl] at hoffers
  obtain ⟨ho, hp⟩ := hoffers
  have henv : (hostMove false (idleTick s)).env = sampleMove s.env.draws got sensor (nextInputs s.env) :=
    hostEnv_convert hd hl _ _
  refine ⟨_, step_idle_quiet hr hp ho, rfl, fun hadc => ⟨fun hb => ?_, fun hb hlen => ?_, fun hb hlen => ?_⟩,
    fun hue rest hfake => ?_⟩
  · cases hd.symm.trans hadc
    rw [henv, sampleMove_adc_busy hb]
    exact ⟨hl, ho, rfl⟩
  · cases hd.symm.trans hadc
    rw [henv, sampleMove_adc_done hb, gatherConversions_fewer hlen]
    exact ⟨rfl, ho, rfl⟩
  · cases hd.symm.trans hadc
    rw [sampleMove_adc_done hb, gatherConversions_ten hlen] at henv
    exact rendersOnChange_of_decideRender henv rfl
  · cases hd.symm.trans hfake
    exact ⟨rendersOnChange_of_decideRender henv rfl, by rw [henv]; exact decideRender_driver hue _⟩

/-- Settles O55: without reset the surroundings are the host's move's, which writes LAST_HUE only where an iteration ends. -/
theorem lastHueWrittenOnlyByIterations : Obligations.LastHueWrittenOnlyByIterations := by
  intro s t hstep hchange
  cases hr : s.env.rst with
  | true => exact .inl rfl
  | false =>
    obtain ⟨accepted, henv⟩ := step_env hr hstep
    rw [henv] at hchange ⊢
    exact .inr ((hostEnv_lastHue_or_ends accepted _ s.env).resolve_left hchange)

/-- Settles O58: the run of the boot wait (`runSteps_bootWait`), which has at least one tick. -/
theorem idleEndsWithTheBootWait : Obligations.IdleEndsWithTheBootWait := by
  intro s hloop hd hl hrst
  obtain ⟨n, hn⟩ : ∃ n, max 1 s.env.bootLeft = n + 1 := Nat.exists_eq_add_one.mpr (Nat.le_max_left 1 _)
  rw [hn] at hrst ⊢
  exact runSteps_bootWait hloop hd hl hn hrst

/-- Settles O57: State.reset is a literal with the wait's 10000000 ticks before it; a reset tick starts the wait over
(`bootInv_resetTick`). -/
theorem resetStartsBootWait : Obligations.ResetStartsBootWait := by
  refine ⟨⟨rfl, .inr ⟨rfl, nofun, by decide⟩⟩, rfl, fun s t hr hstep => ?_⟩
  cases (step_reset hr).symm.trans hstep
  exact ⟨resetEnv_bootLeft _ _, bootInv_resetTick⟩

end Sys2Proof.Machine
end

section
/-! PROOFS. The exceptions file's statement: the ticks a refusal can come from, a command's refusals on an idle core, and where
a step is refused (O20). -/

namespace Sys2Proof.Machine

variable {s : State} {w : Word} {i : Instr} {q : Refusal}

/-- A reset tick, a busy tick and a tick with a quiet port have a next state: a refusal comes from a word offered in IDLE. -/
theorem offered_of_step_refused (h : step s = .refused q) :
    s.env.rst = false ∧ s.regs.phase = .idle ∧ ∃ w, cmdWord? s.env.offer = some w := by
  have hr : s.env.rst = false := by
    by_contra hr
    simp [step_reset ((Bool.not_eq_false _).mp hr)] at h
  have hp : s.regs.phase = .idle := by
    by_contra hp
    simp [step_busy hr hp] at h
  refine ⟨hr, hp, ?_⟩
  cases ho : s.env.offer with
  | quiet => simp [step_idle_quiet hr hp ho] at h
  | hold w => exact ⟨w, rfl⟩
  | pulse w => exact ⟨w, rfl⟩

/-- Of the commands an idle core runs, HSV2RGB is refused outside its domain, WRITE without a colour, SETRGB never (R121, R136,
R168). -/
theorem exec_command_idle_refused_iff (hp : s.regs.phase = .idle) (hi : i.isCommand = true) :
    exec i s = .refused q ↔
      (∃ h sat val, i = .hsv2rgb h sat val ∧ hsvInDomain h sat val = false) ∧ q = .operandOutOfDomain ∨
      i = .write ∧ s.regs.colorValid = false ∧ q = .colorUnwritten := by
  cases i with
  | setrgb r g b => simp [exec, execSetrgb_idle hp]
  | hsv2rgb h sat val =>
    cases hd : hsvInDomain h sat val <;> simp [exec, execHsv2rgb_idle hp, hd, eq_comm (a := q)]
  | write =>
    cases hv : s.regs.colorValid <;> simp [exec, execWrite_idle hp, hv, eq_comm (a := q)]
  | emit0 => cases hi
  | emit1 => cases hi

/-- A word offered to an idle core is refused if it decodes to nothing, else where its command is (R87, R226). -/
theorem step_offered_refused_iff (hr : s.env.rst = false) (hp : s.regs.phase = .idle)
    (ho : cmdWord? s.env.offer = some w) :
    step s = .refused q ↔
      (∃ e, decode w = .error e) ∧ q = .reservedCommand ∨
      (∃ h sat val, decode w = .ok (.hsv2rgb h sat val) ∧
        (360 ≤ h.toNat ∨ 101 ≤ sat.toNat ∨ 101 ≤ val.toNat)) ∧ q = .operandOutOfDomain ∨
      decode w = .ok .write ∧ s.regs.colorValid = false ∧ q = .colorUnwritten := by
  cases hd : decode w with
  | error e => simp [step_reserved hr hp ho hd, eq_comm (a := q)]
  | ok i =>
    rw [step_command hr hp ho hd, andThen_eq_refused, exec_command_idle_refused_iff hp (decode_isCommand hd)]
    simp [hsvInDomain_eq_false]

/-- Settles O20: a refusal comes from a word offered in IDLE (`offered_of_step_refused`), and of those exactly R226's are refused
(`step_offered_refused_iff`); there is no fault to answer (R220). -/
theorem refusedExactlyWhereTheSpecRefuses : Obligations.RefusedExactlyWhereTheSpecRefuses := by
  refine fun s => ⟨fun q => ⟨fun h => ?_, ?_⟩, nofun⟩
  · obtain ⟨hr, hp, w, ho⟩ := offered_of_step_refused h
    exact ⟨hr, hp, w, ho, (step_offered_refused_iff hr hp ho).mp h⟩
  · rintro ⟨hr, hp, w, ho, hreason⟩
    exact (step_offered_refused_iff hr hp ho).mpr hreason

end Sys2Proof.Machine
end

section
/-! PROOFS. The reset file's statement: the core and its ports on a tick with `rst` = 1, and a bench's held word (O24). -/

namespace Sys2Proof.Machine

variable {e : Env} {agenda : List Offer} {w : Word}

/-- No word is accepted on a reset tick, so a test bench keeps a held one and its agenda (R131, R226, logs 7 and 10). -/
theorem resetEnv_bench_held (hb : e.driver = .bench agenda) (ho : e.offer = .hold w) (c : Config) :
    (resetEnv c e).offer = .hold w ∧ (resetEnv c e).driver = .bench agenda := by
  simp [resetEnv, hb, ho, benchMove, stillHeld]

/-- Settles O24: the step is `resetTick`, whose registers are R37's; the ports follow from PHASE = IDLE, and a bench's held word
is kept by `resetEnv_bench_held`. -/
theorem resetTickForcesIdle : Obligations.ResetTickForcesIdle := by
  intro s hr
  have hp : (resetTick s).regs.phase = .idle := rfl
  exact ⟨resetTick s, step_reset hr, hp, rfl, rfl, rfl, rfl, rfl, rfl, dout_idle _ hp, rfl, busy_eq_false.mpr hp,
    cmdReady_iff.mpr hp, fun _ _ hb ho => resetEnv_bench_held hb ho s.cfg⟩

end Sys2Proof.Machine
end
